-- ==== Sys2Proof/Word.lean ====
section
/-! DEFINITION. The word types of the block: a Frame byte (R50) and the 4-bit control word (R70). -/

namespace Sys2Proof

/-- One byte of the Frame, and the accumulator's width (R21, R50). -/
abbrev Byte := BitVec 8

/-- The control word `cw = {rst, start, tick, din}` of one clock cycle, `din` in bit 0 (R70). -/
abbrev ControlWord := BitVec 4

end Sys2Proof
end

