-- ==== Sys2Proof/Syntax.lean ====
section
/-! DEFINITION. The operations a control word decodes to (R71), the codes of the status registers (R75, R76, R77),
the pulse classes (R74), and the statements of the stimulus notation (R80, R81). -/

namespace Sys2Proof

/-- The five operations of spec/opcode_table.json (R71). None has an operand: the sampled level is fixed by the row and
the don't-care bits are ignored (R72). -/
inductive Instr where
  | reset
  | start
  | sampleHigh
  | sampleLow
  | nop
deriving DecidableEq, Repr, Inhabited

/-- The values of register `state` (R75). The reserved code 3 cannot be written down (R78). -/
inductive RunState where
  | idle
  | running
  | done
deriving DecidableEq, Repr, Inhabited

/-- The values of register `result` (R76). -/
inductive Verdict where
  | none
  | valid
  | invalid
  | timeout
deriving DecidableEq, Repr, Inhabited

/-- The values of register `end_cause`, and the event a pulse answers with (R77, R140). The reserved codes 5, 6 and 7
cannot be written down (R78). -/
inductive EndCause where
  | none
  | abort
  | watchdog
  | unclassifiable
  | overflow
deriving DecidableEq, Repr, Inhabited

/-- The two levels of the sensor line (R20: `din` is 1 for HIGH and 0 for LOW). -/
inductive Level where
  | low
  | high
deriving DecidableEq, Repr, Inhabited

/-- The class of a data pulse (R74, R145). -/
inductive PulseClass where
  | bit0
  | bit1
  | unclassifiable
deriving DecidableEq, Repr, Inhabited

/-- One line of a stimulus program: a base instruction (R80) or a pseudo-instruction (R81). -/
inductive Stimulus where
  | base (i : Instr)
  | hi (n : Nat)
  | lo (n : Nat)
  | idle (n : Nat)
  | pulse (d g : Nat)
  | bit0
  | bit1
  | byte (v : Byte)
  | frame (b0 b1 b2 b3 b4 : Byte)
  | handshake
  | lineIdle
deriving DecidableEq, Repr

end Sys2Proof
end

