-- ==== Sys2Proof/Config.lean ====
section
/-! DEFINITION. What this hardware fixes (the parameters of R5) and the free values: constants with no body, for what the
spec leaves open. -/

namespace Sys2Proof

/-- The parameters of R5 that R6 lets a model take as arguments, and the host's three. -/
structure Params where
  /-- `WATCHDOG_LIMIT`: the samples of one attempt. -/
  watchdogLimit : Nat
  /-- `PULSE_ABORT_LENGTH`: the HIGH run that ends the sampling loop. -/
  pulseAbortLength : Nat
  /-- `BIT1_MIN`: the shortest pulse of class BIT1. -/
  bit1Min : Nat
  /-- `UNCLASS_MIN`: the shortest unclassifiable pulse. -/
  unclassMin : Nat
  /-- `MAX_RETRIES`: the host's number of attempts. -/
  maxRetries : Nat
  /-- `HANDSHAKE_HOLD_MS`: the host's hold of the line LOW, in milliseconds. -/
  handshakeHoldMs : Nat
  /-- `RETRY_INTERVAL_MS`: the host's pause between attempts, in milliseconds. -/
  retryIntervalMs : Nat
deriving DecidableEq, Repr

namespace Config

/-- This hardware's values (R5, column "value"; D26). -/
def params : Params where
  watchdogLimit := 50000
  pulseAbortLength := 200
  bit1Min := 30
  unclassMin := 85
  maxRetries := 3
  handshakeHoldMs := 20
  retryIntervalMs := 2000

/-- `HANDSHAKE_PULSES`, fixed (R5, R6). -/
@[simp] abbrev handshakePulses : Nat := 2

/-- `DATA_BITS`, fixed (R5, R6). -/
@[simp] abbrev dataBits : Nat := 40

/-- `FRAME_BYTES`, fixed (R5, R6). -/
@[simp] abbrev frameBytes : Nat := 5

/-- `TICK_PERIOD` in nanoseconds: OPEN (R5, R243, D4). No rule of the block depends on it. -/
opaque tickPeriodNs : Nat

/-- FREE VALUE (log entry 1): the control word the host puts on the ports in the n-th cycle for which the stimulus gives
none. -/
opaque freeControlWord : Nat → ControlWord

/-- FREE VALUE (log entry 3): where a byte store goes when `p < 8` and `(p / 8) - 1` is no natural number. Within the bound
of R53: one of the five bytes, or none. -/
opaque freeByteIndex : BitVec 6 → Option (Fin 5)

/-- FREE VALUE (log entry 4): what a counter of `w` bits holds after counting up from the largest value of its width, a
sum R27 says no counter reaches. -/
opaque freeCount (w : Nat) : BitVec w

/-- FREE VALUE (log entry 2, R231): `state` at power-up. -/
opaque powerUpState : RunState

/-- FREE VALUE (log entry 2, R231): `wd_count` at power-up, at its width `w` (R21). -/
opaque powerUpWdCount (w : Nat) : BitVec w

/-- FREE VALUE (log entry 2, R231): `high_count` at power-up, at its width `w` (R21). -/
opaque powerUpHighCount (w : Nat) : BitVec w

/-- FREE VALUE (log entry 2, R231): `pulse_index` at power-up. -/
opaque powerUpPulseIndex : BitVec 6

/-- FREE VALUE (log entry 2, R231): `bits` at power-up. -/
opaque powerUpBits : BitVec 4

/-- FREE VALUE (log entry 2, R231): `acc` at power-up. -/
opaque powerUpAcc : BitVec 8

/-- FREE VALUE (log entry 2, R231): a Frame byte at power-up. -/
opaque powerUpByte : Nat → Byte

/-- FREE VALUE (log entry 2, R231): `result` at power-up. -/
opaque powerUpResult : Verdict

/-- FREE VALUE (log entry 2, R231): `end_cause` at power-up. -/
opaque powerUpCause : EndCause

end Config
end Sys2Proof
end

