-- ==== Sys2Proof/WellFormed.lean ====
section
/-! DEFINITION. What is well formed: every operation (R78), a legal parameter set (R6), a line of a stimulus program (R81). -/

namespace Sys2Proof

/-- Every operation is well formed: no control word is illegal or reserved (R78), and none has an operand (R72). -/
def Instr.wf : Instr → Bool
  | .reset => true
  | .start => true
  | .sampleHigh => true
  | .sampleLow => true
  | .nop => true

/-- Why a parameter set is illegal (R6). -/
inductive ParamError where
  | watchdogLimitZero
  | pulseAbortLengthZero
  | bit1MinZero
  | unclassMinBelowBit1Min
deriving DecidableEq, Repr

/-- A model must refuse an illegal parameter set (R6): `ok` for a legal one, else the first condition it breaks. -/
def Params.check (P : Params) : Except ParamError Unit :=
  if P.watchdogLimit = 0 then .error .watchdogLimitZero
  else if P.pulseAbortLength = 0 then .error .pulseAbortLengthZero
  else if P.bit1Min = 0 then .error .bit1MinZero
  else if P.unclassMin < P.bit1Min then .error .unclassMinBelowBit1Min
  else .ok ()

/-- The legal parameter sets, condition by condition (R6). -/
abbrev Params.Legal (P : Params) : Prop :=
  1 ≤ P.watchdogLimit ∧ 1 ≤ P.pulseAbortLength ∧ 1 ≤ P.bit1Min ∧ P.bit1Min ≤ P.unclassMin

/-- The width of a counter whose largest legal value is `limit`: `ceil(log2(limit + 1))` bits (R21). -/
def counterWidth (limit : Nat) : Nat := Nat.clog 2 (limit + 1)

/-- The width of `wd_count` for the parameters `P` (R21). -/
abbrev Params.wdWidth (P : Params) : Nat := counterWidth P.watchdogLimit

/-- The width of `high_count` for the parameters `P` (R21). -/
abbrev Params.highWidth (P : Params) : Nat := counterWidth P.pulseAbortLength

/-- Why a line of a stimulus program is ill formed (R81: the counts `n`, `d` and `g` are each at least 1). -/
inductive StimulusError where
  | zeroCount
  | zeroDuration
  | zeroGap
deriving DecidableEq, Repr

/-- The counts of a pseudo-instruction are each at least 1 (R81). -/
def Stimulus.check : Stimulus → Except StimulusError Unit
  | .base _ => .ok ()
  | .hi n => if n = 0 then .error .zeroCount else .ok ()
  | .lo n => if n = 0 then .error .zeroCount else .ok ()
  | .idle n => if n = 0 then .error .zeroCount else .ok ()
  | .pulse d g =>
    if d = 0 then .error .zeroDuration else if g = 0 then .error .zeroGap else .ok ()
  | .bit0 => .ok ()
  | .bit1 => .ok ()
  | .byte _ => .ok ()
  | .frame _ _ _ _ _ => .ok ()
  | .handshake => .ok ()
  | .lineIdle => .ok ()

end Sys2Proof
end

