-- ==== Sys2Proof/Decode.lean ====
section
/-! DEFINITION. Decoding a control word (R70, R71), total on any bytes; the opcode table; and the encoder of canonical words
(R80). -/

namespace Sys2Proof

/-- Field `rst` of the control word, bit 3 (R70). -/
def ControlWord.rst (cw : ControlWord) : Bool := cw.getLsbD 3

/-- Field `start` of the control word, bit 2 (R70). -/
def ControlWord.start (cw : ControlWord) : Bool := cw.getLsbD 2

/-- Field `tick` of the control word, bit 1 (R70). -/
def ControlWord.tick (cw : ControlWord) : Bool := cw.getLsbD 1

/-- Field `din` of the control word, bit 0 (R70). -/
def ControlWord.din (cw : ControlWord) : Bool := cw.getLsbD 0

/-- `{rst, start, tick, din}` as one word (R70). -/
def ControlWord.ofPorts (rst start tick din : Bool) : ControlWord :=
  BitVec.ofBool rst ++ BitVec.ofBool start ++ BitVec.ofBool tick ++ BitVec.ofBool din

/-- The operation of a control word, with the priority RESET, START, samples, NOP (R71, R100). Total: no word is illegal
(R78). -/
def decodeWord (cw : ControlWord) : Instr :=
  if ControlWord.rst cw then .reset
  else if ControlWord.start cw then .start
  else if ControlWord.tick cw then (if ControlWord.din cw then .sampleHigh else .sampleLow)
  else .nop

/-- One row of the decode table of R71. -/
structure OpcodeRow where
  mask : ControlWord
  pattern : ControlWord
  instr : Instr
deriving DecidableEq, Repr

/-- A word `w` selects a row if `(w & mask) == match` (R71). -/
def OpcodeRow.selects (r : OpcodeRow) (w : ControlWord) : Bool := (w &&& r.mask) == r.pattern

/-- The table of R71 and spec/opcode_table.json, row by row. -/
def opcodeRows : List OpcodeRow :=
  [{ mask := 0b1000#4, pattern := 0b1000#4, instr := .reset },
   { mask := 0b1100#4, pattern := 0b0100#4, instr := .start },
   { mask := 0b1111#4, pattern := 0b0011#4, instr := .sampleHigh },
   { mask := 0b1111#4, pattern := 0b0010#4, instr := .sampleLow },
   { mask := 0b1110#4, pattern := 0b0000#4, instr := .nop }]

/-- Why bytes are no control word. -/
inductive DecodeError where
  /-- There is no byte to read. -/
  | noControlWord
  /-- A bit above the four ports is set: the block has no such input (R20, R70). -/
  | bitsAboveThePorts
deriving DecidableEq, Repr

/-- A control word laid out in bytes: one byte, the word in its low four bits, the rest zero (log entry 5). Answers the
operation and the bytes after it. -/
def decodeBytes : List Byte → Except DecodeError (Instr × List Byte)
  | [] => .error .noControlWord
  | b :: rest => if b.toNat < 16 then .ok (decodeWord (b.setWidth 4), rest) else .error .bitsAboveThePorts

/-- The canonical control word of an operation: every don't-care bit 0 (R80). -/
def encode : Instr → ControlWord
  | .reset => 0b1000#4
  | .start => 0b0100#4
  | .sampleHigh => 0b0011#4
  | .sampleLow => 0b0010#4
  | .nop => 0b0000#4

/-- What the decoder reads from an instruction of the opcode table whose bits are `w`, numbered as the table numbers them.
Every row fits one byte, whatever `nbits` the table gives it: a control word is four bits and the bits above it are zero. -/
def decodeTableWord (_nbits w : Nat) : Option Instr :=
  if w < 256 then
    match decodeBytes [BitVec.ofNat 8 w] with
    | .ok (i, _) => some i
    | .error _ => none
  else none

end Sys2Proof
end

