-- ==== Sys2Proof/Machine/State.lean ====
section
/-! DEFINITION. The registers of R21 as plain data, the model's own input fields, the state after reset (R230), the state at
power-up (R231), and the reasons a step can stop (none the spec gives: R100, R202). -/

namespace Sys2Proof.Machine

/-- The Frame, the block's only memory (R50): a list of (index, byte) pairs in the canonical form of `Memory.wf`. -/
abbrev Memory := List Host.Cell

/-- The registers of R21, and after them the model's own two fields for the host's input. `wW` and `hW` are the widths of
`wd_count` and `high_count`: 16 and 8 for this hardware, so that `State` alone is this hardware's state, and
`Params.wdWidth` and `Params.highWidth` for another legal parameter set (R21). -/
structure State (wW : Nat := 16) (hW : Nat := 8) where
  /-- `state`, 2 bits: IDLE, RUNNING or DONE (R75). -/
  state : RunState
  /-- `wd_count`, `wW` bits: the samples the attempt has consumed (R124). -/
  wdCount : BitVec wW
  /-- `high_count`, `hW` bits: the HIGH run being measured (R121). -/
  highCount : BitVec hW
  /-- `pulse_index`, 6 bits: the HIGH pulses counted (R141). -/
  pulseIndex : BitVec 6
  /-- `acc`, 8 bits: the byte being assembled (R146). -/
  acc : BitVec 8
  /-- `bits`, 4 bits: how many bits `acc` holds (R22). -/
  bits : BitVec 4
  /-- `frame[0]` to `frame[4]`, 8 bits each (R50). -/
  frame : Memory
  /-- `result`, 2 bits: the verdict (R76). -/
  result : Verdict
  /-- `end_cause`, 3 bits: what ended the attempt (R77). -/
  endCause : EndCause
  /-- THE MODEL'S OWN (log entry 1): the control words still to come on the input ports, the next one first (R70, R82). -/
  stimulus : List ControlWord
  /-- THE MODEL'S OWN (log entry 1): how many free control words have been drawn. -/
  freeWords : Nat
deriving DecidableEq, Repr

/-- The block raises no fault: every control word is legal, `step` is total, and there is no address that could fault
(R78, R100, R202). An attempt's end is a next state (R204), so no constructor stands here. -/
inductive Fault
deriving DecidableEq, Repr

/-- Why a step has no meaning. -/
inductive Refusal where
  /-- Raised only by an arm of `exec` for an operation the model gives no meaning yet. Safe: the model stops. No arm raises
  it. -/
  | notModelled (mnemonic : String)
deriving DecidableEq, Repr

/-- The block's state for the parameters `P`: the same registers, with the widths R21 gives them. -/
abbrev BlockOf (P : Params) : Type := State P.wdWidth P.highWidth

/-- The block right after RESET (R230): every register at the "reset" column of R21. The model's own two fields: no control
word is pending and no free one has been drawn (DESIGN CHOICE, log entry 1). -/
def State.reset : State where
  state := .idle
  wdCount := 0
  highCount := 0
  pulseIndex := 0
  acc := 0
  bits := 0
  frame := []
  result := .none
  endCause := .none
  stimulus := []
  freeWords := 0

end Sys2Proof.Machine
end

