-- ==== Sys2Proof/Machine/Memory.lean ====
section
/-! DEFINITION. Reading and writing the Frame (R7: MemRead and MemWrite; R50, R51), in one canonical form. -/

namespace Sys2Proof.Machine

/-- What an index the list does not name reads as: 0x00, the Frame's reset contents (R51, R230). -/
def Memory.unlisted : Byte := 0

/-- `MemRead(a, 1)`: byte `a` of the Frame (R7). -/
def Memory.read : Memory → Nat → Byte
  | [], _ => Memory.unlisted
  | c :: m, a => if c.1 = a then c.2 else Memory.read m a

/-- The list without any entry at index `a`. -/
def Memory.erase : Memory → Nat → Memory
  | [], _ => []
  | c :: m, a => if c.1 = a then Memory.erase m a else c :: Memory.erase m a

/-- The entry `(a, b)` put before the first entry of a larger index. -/
def Memory.insert : Memory → Nat → Byte → Memory
  | [], a, b => [(a, b)]
  | c :: m, a, b => if a < c.1 then (a, b) :: c :: m else c :: Memory.insert m a b

/-- `MemWrite(a, 1, b)`: one whole byte (R51). Writing what an unlisted index reads as removes the entry, so equal Frames
are equal lists. -/
def Memory.write (m : Memory) (a : Nat) (b : Byte) : Memory :=
  if b = Memory.unlisted then m.erase a else (m.erase a).insert a b

/-- The canonical form: indexes strictly rising, each one of the five the spec gives (R50, R63), no entry equal to what an
unlisted index reads as. -/
abbrev Memory.wf (m : Memory) : Prop :=
  m.Pairwise (fun x y => x.1 < y.1) ∧ ∀ c ∈ m, c.1 < Config.frameBytes ∧ c.2 ≠ Memory.unlisted

/-- The Frame that holds the five given bytes. -/
def Memory.ofBytes (b0 b1 b2 b3 b4 : Byte) : Memory :=
  Memory.write (Memory.write (Memory.write (Memory.write (Memory.write [] 0 b0) 1 b1) 2 b2) 3 b3) 4 b4

end Sys2Proof.Machine
end

