-- ==== Sys2Proof/Machine/Operands.lean ====
section
/-! DEFINITION. The operands: the sampled level (R72), the pulse duration (R73, R123), and the class of a duration (R74,
R145). -/

namespace Sys2Proof.Machine

variable {wW hW : Nat}

/-- The level of a sample, from `din` (R20: 1 is HIGH). -/
def levelOfDin (din : Bool) : Level := if din then .high else .low

/-- The sample operation of a level (R71). -/
def sampleInstr : Level → Instr
  | .high => .sampleHigh
  | .low => .sampleLow

/-- The duration `d` of the pulse a LOW sample ends: `high_count` if a HIGH run is open, else there is no pulse (R73,
R123). -/
def State.pulseDuration (s : State wW hW) : Option Nat :=
  if s.highCount.toNat = 0 then none else some s.highCount.toNat

/-- The class of a data pulse's duration (R145): BIT0 below `BIT1_MIN`, BIT1 below `UNCLASS_MIN`, else
UNCLASSIFIABLE. -/
def classify (P : Params) (d : Nat) : PulseClass :=
  if d < P.bit1Min then .bit0
  else if d < P.unclassMin then .bit1
  else .unclassifiable

/-- The byte a store at `p = pulse_index` goes to: `(p / 8) - 1`, if it is an index from 0 to 4 (R147, R53). Where `p < 8`
the formula gives no natural number: a free value within R53 (log entry 3). -/
def byteIndex (p : BitVec 6) : Option (Fin 5) :=
  if p.toNat < 8 then Config.freeByteIndex p
  else if h : p.toNat / 8 - 1 < 5 then some ⟨p.toNat / 8 - 1, h⟩
  else none

end Sys2Proof.Machine
end

