-- ==== Sys2Proof/Machine/Flags.lean ====
section
/-! DEFINITION. The status codes (R75 to R77), the flags (R41) and every output port (R40), all fixed functions of the
registers: the checksum (R160, R161), the conversion (R164, R165) and the frame's completeness (R148). -/

namespace Sys2Proof.Machine

variable {wW hW : Nat}

/-- The code of `state` (R75). -/
def stateCode : RunState → BitVec 2
  | .idle => 0
  | .running => 1
  | .done => 2

/-- The code of `result` (R76). -/
def resultCode : Verdict → BitVec 2
  | .none => 0
  | .valid => 1
  | .invalid => 2
  | .timeout => 3

/-- The code of `end_cause` (R77). -/
def causeCode : EndCause → BitVec 3
  | .none => 0
  | .abort => 1
  | .watchdog => 2
  | .unclassifiable => 3
  | .overflow => 4

/-- A code held in `state` read back as its value; the reserved code 3 is refused (R78). -/
def stateOfCode (c : BitVec 2) : Option RunState :=
  if c = 0 then some .idle else if c = 1 then some .running else if c = 2 then some .done else none

/-- A code held in `result` read back as its value (R76). -/
def resultOfCode (c : BitVec 2) : Verdict :=
  if c = 0 then .none else if c = 1 then .valid else if c = 2 then .invalid else .timeout

/-- A code held in `end_cause` read back as its value; the reserved codes 5, 6 and 7 are refused (R78). -/
def causeOfCode (c : BitVec 3) : Option EndCause :=
  if c = 0 then some .none else if c = 1 then some .abort else if c = 2 then some .watchdog
  else if c = 3 then some .unclassifiable else if c = 4 then some .overflow else none

/-- `checksum_calc`: the sum of the four payload bytes modulo 256 (R160). -/
def checksumCalc (m : Memory) : Byte :=
  BitVec.ofNat 8 ((m.read 0).toNat + (m.read 1).toNat + (m.read 2).toNat + (m.read 3).toNat)

/-- `checksum_ok`: the computed checksum equals the fifth byte and is not zero (R161). -/
def checksumOk (m : Memory) : Bool := checksumCalc m == m.read 4 && checksumCalc m != 0

/-- `humidity_x10`: humidity in tenths of a percent, high byte first (R164). -/
def humidityX10 (m : Memory) : BitVec 16 := BitVec.ofNat 16 ((m.read 0).toNat * 256 + (m.read 1).toNat)

/-- `temp_neg`: set only when byte 2 is exactly 0x80 (R165). -/
def tempNeg (m : Memory) : Bool := m.read 2 == 0x80#8

/-- `temp_mag_x10`: the temperature's magnitude in tenths of a degree (R165). -/
def tempMagX10 (m : Memory) : Byte := m.read 3

/-- `data_bits`: the data bits counted, at most 40 (R40). -/
def dataBits (p : BitVec 6) : BitVec 6 :=
  if p.toNat ≤ Config.handshakePulses then 0
  else BitVec.ofNat 6 (min (p.toNat - Config.handshakePulses) Config.dataBits)

/-- `frame_complete` (R40, R148). -/
def frameComplete (p : BitVec 6) : Bool := (dataBits p).toNat == Config.dataBits

/-- `busy` (R40). -/
def State.busy (s : State wW hW) : Bool := s.state == .running

/-- `done` (R40). -/
def State.isDone (s : State wW hW) : Bool := s.state == .done

/-- The output ports of R40, each with its width; the ports of `wd_count` and `high_count` are as wide as the registers. -/
structure Outputs (wW : Nat := 16) (hW : Nat := 8) where
  busy : Bool
  done : Bool
  result : BitVec 2
  endCause : BitVec 3
  frame0 : Byte
  frame1 : Byte
  frame2 : Byte
  frame3 : Byte
  frame4 : Byte
  checksumCalc : Byte
  checksumOk : Bool
  dataBits : BitVec 6
  frameComplete : Bool
  humidityX10 : BitVec 16
  tempNeg : Bool
  tempMagX10 : BitVec 8
  dbgState : BitVec 2
  dbgWdCount : BitVec wW
  dbgHighCount : BitVec hW
  dbgPulseIndex : BitVec 6
  dbgAcc : BitVec 8
  dbgBits : BitVec 4
deriving DecidableEq, Repr

/-- What the block drives in every cycle, whatever the state: functions of the registers alone (R40). -/
def State.outputs (s : State wW hW) : Outputs wW hW where
  busy := s.busy
  done := s.isDone
  result := resultCode s.result
  endCause := causeCode s.endCause
  frame0 := s.frame.read 0
  frame1 := s.frame.read 1
  frame2 := s.frame.read 2
  frame3 := s.frame.read 3
  frame4 := s.frame.read 4
  checksumCalc := Sys2Proof.Machine.checksumCalc s.frame
  checksumOk := Sys2Proof.Machine.checksumOk s.frame
  dataBits := Sys2Proof.Machine.dataBits s.pulseIndex
  frameComplete := Sys2Proof.Machine.frameComplete s.pulseIndex
  humidityX10 := Sys2Proof.Machine.humidityX10 s.frame
  tempNeg := Sys2Proof.Machine.tempNeg s.frame
  tempMagX10 := Sys2Proof.Machine.tempMagX10 s.frame
  dbgState := stateCode s.state
  dbgWdCount := s.wdCount
  dbgHighCount := s.highCount
  dbgPulseIndex := s.pulseIndex
  dbgAcc := s.acc
  dbgBits := s.bits

end Sys2Proof.Machine
end

