-- ==== Sys2Proof/Machine/Validator.lean ====
section
/-! DEFINITION. VALIDATE, the verdict of an ended attempt (R166), and the reading the outputs stand for (R167, R185, R186). -/

namespace Sys2Proof.Machine

variable {wW hW : Nat}

/-- The verdict of an attempt that ends with `cause`, on the state after every write of the ending sample (R166). A cause of
NONE, which R166 gives no case and no rule passes, takes the loop-end branch with ABORT and WATCHDOG, as the rule's text is
written (log entry 6). -/
def State.verdict (s : State wW hW) (cause : EndCause) : Verdict :=
  if cause = .unclassifiable ∨ cause = .overflow then .invalid
  else if frameComplete s.pulseIndex then (if checksumOk s.frame then .valid else .invalid)
  else .timeout

/-- The source's `Reading`, kept as the block's exact outputs: tenths, sign and magnitude (R167, D13; the sign is kept, so
negative zero is not lost, D14). -/
structure Reading where
  humidityX10 : BitVec 16
  tempNeg : Bool
  tempMagX10 : BitVec 8
deriving DecidableEq, Repr

/-- The exact humidity in percent, `humidity_x10 / 10` (R167). Rounding it to a float is the host's (I6). -/
def Reading.humidityPercent (r : Reading) : ℚ := (r.humidityX10.toNat : ℚ) / 10

/-- The exact temperature in Celsius, `±temp_mag_x10 / 10` (R167). -/
def Reading.celsius (r : Reading) : ℚ :=
  if r.tempNeg then -((r.tempMagX10.toNat : ℚ) / 10) else (r.tempMagX10.toNat : ℚ) / 10

/-- The reading the outputs give (R167). -/
def State.reading (s : State wW hW) : Reading where
  humidityX10 := Sys2Proof.Machine.humidityX10 s.frame
  tempNeg := Sys2Proof.Machine.tempNeg s.frame
  tempMagX10 := Sys2Proof.Machine.tempMagX10 s.frame

/-- The reading the host may take: only when `done = 1` and `result = VALID` (R185). -/
def State.validReading (s : State wW hW) : Option Reading :=
  if s.isDone ∧ s.result = .valid then some s.reading else none

end Sys2Proof.Machine
end

