-- ==== Sys2Proof/Machine/Ops.lean ====
section
/-! DEFINITION. The named operations over the registers: counting, clearing, the byte accumulator, the end of an attempt
(R204, the block's one exception entry), power-up (R231), and taking a cycle's control word from the host's input. -/

namespace Sys2Proof.Machine

variable {wW hW : Nat}

/-- A counter register one up (R7: exact arithmetic). From the largest value of the width, which no legal state reaches
(R27), the register holds a free value (log entry 4). -/
def countUp {w : Nat} (v : BitVec w) : BitVec w :=
  if v.toNat + 1 < 2 ^ w then v + 1 else Config.freeCount w

/-- `wd_count` counts this sample (R124). -/
def State.countSample (s : State wW hW) : State wW hW := { s with wdCount := countUp s.wdCount }

/-- `high_count` counts this HIGH sample (R121). -/
def State.countHigh (s : State wW hW) : State wW hW := { s with highCount := countUp s.highCount }

/-- `high_count` is set to 0 when its run becomes a pulse (R123). -/
def State.clearRun (s : State wW hW) : State wW hW := { s with highCount := 0 }

/-- `pulse_index` counts this pulse (R141). -/
def State.countPulse (s : State wW hW) : State wW hW := { s with pulseIndex := countUp s.pulseIndex }

/-- `acc` and `bits` set to 0 (R144, R147). -/
def State.clearAccumulator (s : State wW hW) : State wW hW := { s with acc := 0, bits := 0 }

/-- A data bit enters `acc` at bit 0 and `bits` counts it (R146). -/
def State.shiftIn (s : State wW hW) (c : Bool) : State wW hW :=
  { s with acc := (s.acc <<< 1) ||| (BitVec.ofBool c).setWidth 8, bits := countUp s.bits }

/-- `frame[k] <- v` (R51). -/
def State.storeFrame (s : State wW hW) (k : Fin 5) (v : Byte) : State wW hW := { s with frame := s.frame.write k.val v }

/-- Every register to the "reset" column of R21 but `state`, which becomes `r` (R102, R103 write the same values). The
host's input is no register and stays. -/
def State.clearRegisters (s : State wW hW) (r : RunState) : State wW hW :=
  { state := r, wdCount := 0, highCount := 0, pulseIndex := 0, acc := 0, bits := 0, frame := [], result := .none,
    endCause := .none, stimulus := s.stimulus, freeWords := s.freeWords }

/-- The end of an attempt (R204), the block's one exception entry: `state`, `end_cause` and `result` are written, the
verdict seeing every write of the ending sample, and nothing else changes. There is no saved register, vector or mode, and
no return: DONE holds until START or RESET (R205). -/
def State.finish (s : State wW hW) (cause : EndCause) : State wW hW :=
  { s with state := .done, endCause := cause, result := s.verdict cause }

/-- Power-up, before the first RESET (R231): every register holds a free value of its legal type, each its own (log
entry 2); `ws` is what the host is to put on the ports. -/
def State.powerUp (ws : List ControlWord) : State wW hW where
  state := Config.powerUpState
  wdCount := Config.powerUpWdCount wW
  highCount := Config.powerUpHighCount hW
  pulseIndex := Config.powerUpPulseIndex
  acc := Config.powerUpAcc
  bits := Config.powerUpBits
  frame := Memory.ofBytes (Config.powerUpByte 0) (Config.powerUpByte 1) (Config.powerUpByte 2)
    (Config.powerUpByte 3) (Config.powerUpByte 4)
  result := Config.powerUpResult
  endCause := Config.powerUpCause
  stimulus := ws
  freeWords := 0

/-- The control word on the ports in this cycle: the next pending one, or a free word where the host's input gives none (R70,
log entry 1). -/
def State.controlWord (s : State wW hW) : ControlWord :=
  match s.stimulus with
  | [] => Config.freeControlWord s.freeWords
  | w :: _ => w

/-- The host's input with this cycle's control word taken. -/
def State.takeWord (s : State wW hW) : State wW hW :=
  match s.stimulus with
  | [] => { s with freeWords := s.freeWords + 1 }
  | _ :: ws => { s with stimulus := ws }

/-- The control word `cw` stored where the next step takes its word. -/
def State.placeWord (s : State wW hW) (cw : ControlWord) : State wW hW :=
  match s.stimulus with
  | [] => { s with stimulus := [cw] }
  | _ :: ws => { s with stimulus := cw :: ws }

end Sys2Proof.Machine
end

