-- ==== Sys2Proof/Machine/Control.lean ====
section
/-! DEFINITION. The meanings of RESET (R102), START (R103, R104) and NOP (R105). -/

namespace Sys2Proof.Machine

variable {wW hW : Nat}

/-- `op_reset`: every register to its reset value, in every state (R102). -/
def State.resetWord (s : State wW hW) : State wW hW := s.clearRegisters .idle

/-- `op_start`: from IDLE or DONE a new attempt with every register clear; in RUNNING ignored (R103, R104). -/
def State.startWord (s : State wW hW) : State wW hW :=
  if s.state = .running then s else s.clearRegisters .running

/-- RESET (R102). -/
def execReset (s : State) : Host.Outcome State Fault Refusal := .next s.resetWord

/-- START (R103, R104). -/
def execStart (s : State) : Host.Outcome State Fault Refusal := .next s.startWord

/-- NOP (R105). -/
def execNop (s : State) : Host.Outcome State Fault Refusal := .next s

end Sys2Proof.Machine
end

