-- ==== Sys2Proof/Machine/Accumulator.lean ====
section
/-! DEFINITION. The bit-frame accumulator: BYTE_STORE (R147) and PULSE (R140), the micro-operations SAMPLE_LOW calls. -/

namespace Sys2Proof.Machine

variable {wW hW : Nat}

/-- BYTE_STORE (R147): `frame[(p / 8) - 1] <- acc`, then `acc` and `bits` are 0. An index outside 0 to 4 is never written
(R53). -/
def State.byteStore (s : State wW hW) : State wW hW :=
  match byteIndex s.pulseIndex with
  | some k => (s.storeFrame k s.acc).clearAccumulator
  | none => s.clearAccumulator

/-- A classified data bit is shifted in, and the eighth one stores the byte (R146, R147). -/
def State.accumulate (s : State wW hW) (c : Bool) : State wW hW :=
  if (s.shiftIn c).bits = 8 then (s.shiftIn c).byteStore else s.shiftIn c

/-- A data pulse of duration `d` that is within the forty bits: classified, then accumulated (R145, R146). -/
def State.dataPulse (P : Params) (d : Nat) (s : State wW hW) : State wW hW × EndCause :=
  match classify P d with
  | .bit0 => (s.accumulate false, .none)
  | .bit1 => (s.accumulate true, .none)
  | .unclassifiable => (s, .unclassifiable)

/-- PULSE after `pulse_index` has counted it (R140): handshake pulses are discarded (R143), the second one clearing the
accumulator (R144); the 41st data pulse answers OVERFLOW before it is classified (R142). -/
def State.countedPulse (P : Params) (d : Nat) (s : State wW hW) : State wW hW × EndCause :=
  if s.pulseIndex.toNat < Config.handshakePulses then (s, .none)
  else if s.pulseIndex.toNat = Config.handshakePulses then (s.clearAccumulator, .none)
  else if Config.handshakePulses + Config.dataBits < s.pulseIndex.toNat then (s, .overflow)
  else s.dataPulse P d

/-- PULSE (R140): the state after a pulse of duration `d`, and the event it answers with (NONE, OVERFLOW or
UNCLASSIFIABLE). -/
def State.pulse (P : Params) (d : Nat) (s : State wW hW) : State wW hW × EndCause :=
  s.countPulse.countedPulse P d

end Sys2Proof.Machine
end

