-- ==== Sys2Proof/Machine/Sampler.lean ====
section
/-! DEFINITION. The pulse sampler: `sample` (R120) and the meanings of SAMPLE_HIGH (R121) and SAMPLE_LOW (R122). -/

namespace Sys2Proof.Machine

variable {wW hW : Nat}

/-- The watchdog test, the last of a sample's steps (R126, R127). -/
def State.watchdogTest (P : Params) (s : State wW hW) : State wW hW :=
  if s.wdCount.toNat = P.watchdogLimit then s.finish .watchdog else s

/-- The HIGH branch of `sample`: the run grows, and ends the attempt at the abort length, before the watchdog is tested
(R121, R125, R127). -/
def State.sampleHigh (P : Params) (s : State wW hW) : State wW hW :=
  if s.countHigh.highCount.toNat = P.pulseAbortLength then s.countHigh.finish .abort
  else s.countHigh.watchdogTest P

/-- What follows a pulse: its event ends the attempt, or there is none and the watchdog is tested (R120, R127). -/
def State.afterPulse (P : Params) (s : State wW hW) (ev : EndCause) : State wW hW :=
  if ev ≠ .none then s.finish ev else s.watchdogTest P

/-- The LOW branch of `sample`: an open HIGH run becomes one pulse, whose event ends the attempt before the watchdog is
tested; with no open run nothing is emitted (R122, R123, R127, R130). -/
def State.sampleLow (P : Params) (s : State wW hW) : State wW hW :=
  match s.pulseDuration with
  | none => s.watchdogTest P
  | some d => (s.clearRun.pulse P d).1.afterPulse P (s.clearRun.pulse P d).2

/-- `sample(s, level)` (R120): the sample is counted, then the level is processed. -/
def State.sample (P : Params) (level : Level) (s : State wW hW) : State wW hW :=
  match level with
  | .high => s.countSample.sampleHigh P
  | .low => s.countSample.sampleLow P

/-- A sample word in any state: `sample` in RUNNING, nothing in IDLE and DONE (R100, R106). -/
def State.sampleWord (P : Params) (level : Level) (s : State wW hW) : State wW hW :=
  if s.state = .running then s.sample P level else s

/-- SAMPLE_HIGH (R121). -/
def execSampleHigh (s : State) : Host.Outcome State Fault Refusal := .next (s.sampleWord Config.params .high)

/-- SAMPLE_LOW (R122). -/
def execSampleLow (s : State) : Host.Outcome State Fault Refusal := .next (s.sampleWord Config.params .low)

end Sys2Proof.Machine
end

