-- ==== Sys2Proof/Machine/Dispatch.lean ====
section
/-! DEFINITION. One arm per operation (R71, R100). -/

namespace Sys2Proof.Machine

/-- The meaning of one operation in one state (R100). -/
def exec (i : Instr) (s : State) : Host.Outcome State Fault Refusal :=
  match i with
  | .reset => Sys2Proof.Machine.execReset s
  | .start => Sys2Proof.Machine.execStart s
  | .sampleHigh => Sys2Proof.Machine.execSampleHigh s
  | .sampleLow => Sys2Proof.Machine.execSampleLow s
  | .nop => Sys2Proof.Machine.execNop s

end Sys2Proof.Machine
end

