-- ==== Sys2Proof/Machine/Step.lean ====
section
/-! DEFINITION. One rising edge of `clk` (R8, R100): the word on the ports is decoded and runs. -/

namespace Sys2Proof.Machine

/-- One clock cycle: the control word is taken from the host's input, decoded (R71) and executed (R100). -/
def step (s : State) : Host.Outcome State Fault Refusal := exec (decodeWord s.controlWord) s.takeWord

/-- `s` with the control word `w` stored where `step` takes its next word; unchanged where the decoder refuses `w`. -/
def State.withFetchWord (s : State) (nbits w : Nat) : State :=
  match decodeTableWord nbits w with
  | some _ => s.placeWord (BitVec.ofNat 4 w)
  | none => s

end Sys2Proof.Machine
end

