-- ==== Sys2Proof/Machine/Parametric.lean ====
section
/-! DEFINITION. The block for any parameter set a model may take (R5, R6), with the register widths R21 gives it. `exec` and
`step` are this at the parameters of this hardware. -/

namespace Sys2Proof.Machine

variable {wW hW : Nat}

/-- The registers after one operation, for the parameters `P` (R100). -/
def State.applyFor (P : Params) (s : State wW hW) : Instr → State wW hW
  | .reset => s.resetWord
  | .start => s.startWord
  | .sampleHigh => s.sampleWord P .high
  | .sampleLow => s.sampleWord P .low
  | .nop => s

/-- One clock cycle for the parameters `P`: the control word is taken, decoded (R71) and executed (R100). -/
def State.stepFor (P : Params) (s : State wW hW) : State wW hW :=
  s.takeWord.applyFor P (decodeWord s.controlWord)

/-- One clock cycle of the block with the parameters `P`, its counters as wide as R21 says; an illegal parameter set is
refused (R6). -/
def stepOf (P : Params) (s : BlockOf P) : Except ParamError (BlockOf P) :=
  match P.check with
  | .ok _ => .ok (s.stepFor P)
  | .error e => .error e

end Sys2Proof.Machine
end

