-- ==== Sys2Proof/Machine/Stimulus.lean ====
section
/-! DEFINITION. The stimulus notation: pseudo-instructions and their expansions (R81), a program's encoding as a run-length
list (R82), the text syntax (R80), and running a list of operations. -/

namespace Sys2Proof.Machine

/-- `BIT0` or `BIT1`: a pulse of 27 or 70 HIGH samples and a gap of 50 LOW samples (R81). -/
def expandBit (c : Bool) : List Instr :=
  List.replicate (if c then 70 else 27) .sampleHigh ++ List.replicate 50 .sampleLow

/-- `BYTE v`: for `i` from 7 down to 0, `BIT1` if `v[i] = 1`, else `BIT0` (R81). -/
def expandByte (v : Byte) : List Instr :=
  expandBit (v.getLsbD 7) ++ expandBit (v.getLsbD 6) ++ expandBit (v.getLsbD 5) ++ expandBit (v.getLsbD 4) ++
    expandBit (v.getLsbD 3) ++ expandBit (v.getLsbD 2) ++ expandBit (v.getLsbD 1) ++ expandBit (v.getLsbD 0)

/-- The operations a line of a stimulus program stands for, one per cycle (R80, R81). -/
def expand : Stimulus → List Instr
  | .base i => [i]
  | .hi n => List.replicate n .sampleHigh
  | .lo n => List.replicate n .sampleLow
  | .idle n => List.replicate n .nop
  | .pulse d g => List.replicate d .sampleHigh ++ List.replicate g .sampleLow
  | .bit0 => expandBit false
  | .bit1 => expandBit true
  | .byte v => expandByte v
  | .frame b0 b1 b2 b3 b4 => expandByte b0 ++ expandByte b1 ++ expandByte b2 ++ expandByte b3 ++ expandByte b4
  | .handshake =>
    List.replicate 20 .sampleHigh ++ List.replicate 80 .sampleLow ++ List.replicate 80 .sampleHigh ++
      List.replicate 50 .sampleLow
  | .lineIdle => List.replicate Config.params.pulseAbortLength .sampleHigh

/-- The canonical control words of a program, in cycle order (R80, R82). -/
def programWords : List Stimulus → List ControlWord
  | [] => []
  | l :: ls => (expand l).map encode ++ programWords ls

/-- A run-length list `count x word` with one more `w` in front (R82). -/
def consRun (w : ControlWord) : List (Nat × ControlWord) → List (Nat × ControlWord)
  | [] => [(1, w)]
  | r :: rs => if r.2 = w then (r.1 + 1, w) :: rs else (1, w) :: r :: rs

/-- The run-length list of a list of control words (R82). -/
def runLength : List ControlWord → List (Nat × ControlWord)
  | [] => []
  | w :: ws => consRun w (runLength ws)

/-- The control words a run-length list gives, in cycle order (R82). -/
def ofRunLength : List (Nat × ControlWord) → List ControlWord
  | [] => []
  | r :: rs => List.replicate r.1 r.2 ++ ofRunLength rs

/-- The registers after one operation: what `exec` answers, as a plain function (R100). -/
def State.apply (s : State) (i : Instr) : State := s.applyFor Config.params i

/-- The registers after a list of operations, one per cycle. -/
def State.applyAll (s : State) : List Instr → State
  | [] => s
  | i :: is => (s.apply i).applyAll is

/-- Why a line of text is no stimulus line. -/
inductive SyntaxError where
  /-- The mnemonic is none of R80 and R81. -/
  | unknownMnemonic
  /-- An operand is missing, is one too many, or is no number. -/
  | badOperands
  /-- A byte operand is above 255. -/
  | byteTooLarge
deriving DecidableEq, Repr

/-- The value of a digit in base `base`, if it is one (R80: decimal, or hexadecimal after `0x`). -/
def digitValue (base : Nat) (c : Char) : Option Nat :=
  let n := c.toNat
  let v := if 48 ≤ n ∧ n ≤ 57 then n - 48
    else if 65 ≤ n ∧ n ≤ 70 then n - 55
    else if 97 ≤ n ∧ n ≤ 102 then n - 87
    else base
  if v < base then some v else none

/-- Digits read on from the value so far. -/
def readDigits (base : Nat) : List Char → Nat → Option Nat
  | [], acc => some acc
  | c :: cs, acc =>
    match digitValue base c with
    | some v => readDigits base cs (acc * base + v)
    | none => none

/-- A number, decimal or hexadecimal with `0x` (R80). -/
def readNumber : List Char → Option Nat
  | [] => none
  | '0' :: 'x' :: c :: cs => readDigits 16 (c :: cs) 0
  | cs => readDigits 10 cs 0

/-- The line up to a `;`, which starts a comment (R80). -/
def dropComment : List Char → List Char
  | [] => []
  | c :: cs => if c = ';' then [] else c :: dropComment cs

/-- The words of a line, separated by spaces, tabs and commas; `cur` is the word being read, its last character first. -/
def splitWords : List Char → List Char → List (List Char)
  | [], cur => if cur.isEmpty then [] else [cur.reverse]
  | c :: cs, cur =>
    if c = ' ' ∨ c = ',' ∨ c = '\t' then
      (if cur.isEmpty then splitWords cs [] else cur.reverse :: splitWords cs [])
    else splitWords cs (c :: cur)

/-- The lines of a text; `cur` is the line being read, its last character first. -/
def splitLines : List Char → List Char → List (List Char)
  | [], cur => [cur.reverse]
  | c :: cs, cur => if c = '\n' then cur.reverse :: splitLines cs [] else splitLines cs (c :: cur)

/-- A byte operand. -/
def readByte (n : Nat) : Except SyntaxError Byte :=
  if n < 256 then .ok (BitVec.ofNat 8 n) else .error .byteTooLarge

/-- The numbers of an operand list. DESIGN CHOICE (log entry 11): a count `n`, `d` or `g` may be written in hexadecimal too.
R80 lets every number be hexadecimal with `0x`, and R81 calls the counts decimal. -/
def readNumbers : List (List Char) → Option (List Nat)
  | [] => some []
  | w :: ws =>
    match readNumber w, readNumbers ws with
    | some n, some ns => some (n :: ns)
    | _, _ => none

/-- The stimulus line of an upper-case mnemonic and its operands (R80, R81). -/
def readStatement (mnemonic : List Char) (operands : List Nat) : Except SyntaxError Stimulus :=
  if mnemonic = "RESET".toList then (if operands = [] then .ok (.base .reset) else .error .badOperands)
  else if mnemonic = "START".toList then (if operands = [] then .ok (.base .start) else .error .badOperands)
  else if mnemonic = "SAMPLE_HIGH".toList then (if operands = [] then .ok (.base .sampleHigh) else .error .badOperands)
  else if mnemonic = "SAMPLE_LOW".toList then (if operands = [] then .ok (.base .sampleLow) else .error .badOperands)
  else if mnemonic = "NOP".toList then (if operands = [] then .ok (.base .nop) else .error .badOperands)
  else if mnemonic = "BIT0".toList then (if operands = [] then .ok .bit0 else .error .badOperands)
  else if mnemonic = "BIT1".toList then (if operands = [] then .ok .bit1 else .error .badOperands)
  else if mnemonic = "HANDSHAKE".toList then (if operands = [] then .ok .handshake else .error .badOperands)
  else if mnemonic = "LINEIDLE".toList then (if operands = [] then .ok .lineIdle else .error .badOperands)
  else if mnemonic = "HI".toList then
    match operands with
    | [n] => .ok (.hi n)
    | _ => .error .badOperands
  else if mnemonic = "LO".toList then
    match operands with
    | [n] => .ok (.lo n)
    | _ => .error .badOperands
  else if mnemonic = "IDLE".toList then
    match operands with
    | [n] => .ok (.idle n)
    | _ => .error .badOperands
  else if mnemonic = "PULSE".toList then
    match operands with
    | [d, g] => .ok (.pulse d g)
    | _ => .error .badOperands
  else if mnemonic = "BYTE".toList then
    match operands with
    | [v] => (readByte v).map .byte
    | _ => .error .badOperands
  else if mnemonic = "FRAME".toList then
    match operands with
    | [v0, v1, v2, v3, v4] =>
      match readByte v0, readByte v1, readByte v2, readByte v3, readByte v4 with
      | .ok b0, .ok b1, .ok b2, .ok b3, .ok b4 => .ok (.frame b0 b1 b2 b3 b4)
      | _, _, _, _, _ => .error .byteTooLarge
    | _ => .error .badOperands
  else .error .unknownMnemonic

/-- One line of text: none if it is empty or a comment only (R80). -/
def readLine (line : List Char) : Except SyntaxError (Option Stimulus) :=
  match splitWords (dropComment line) [] with
  | [] => .ok none
  | m :: ws =>
    match readNumbers ws with
    | some ns => (readStatement m ns).map some
    | none => .error .badOperands

/-- The stimulus lines of lines of text, in order. -/
def readLines : List (List Char) → Except SyntaxError (List Stimulus)
  | [] => .ok []
  | l :: ls =>
    match readLine l, readLines ls with
    | .ok (some p), .ok ps => .ok (p :: ps)
    | .ok none, .ok ps => .ok ps
    | .error e, _ => .error e
    | _, .error e => .error e

/-- A stimulus program's text, one instruction per line (R80). -/
def assemble (text : List Char) : Except SyntaxError (List Stimulus) := readLines (splitLines text [])

end Sys2Proof.Machine
end

