-- ==== Sys2Proof/Machine/Controller.lean ====
section
/-! DEFINITION. The host's contract (44_host_controller.md): one acquisition, closing the loop around the block (R182, R183,
R187, R188, R189). The host is outside the block (R4): `step` does not run it. -/

namespace Sys2Proof.Machine

/-- The pin modes of the GPIO capability (R180). -/
inductive PinMode where
  | output
  | input
deriving DecidableEq, Repr

/-- What the host does in an acquisition, in order (R183). -/
inductive HostAction where
  | setMode (m : PinMode)
  | writePin (l : Level)
  | sleepMillis (n : Nat)
  /-- One control word given to the block: START, or a sample of the line. -/
  | give (i : Instr)
  /-- The wait of one `TICK_PERIOD` after a sample. -/
  | waitTick
deriving DecidableEq, Repr

/-- The fatal and final failures (R189). -/
inductive FailureReason where
  | noData
  | gpioInitFailed
  | invalidPin
deriving DecidableEq, Repr

/-- The sole value an acquisition returns (R189). -/
inductive AcquisitionOutcome where
  | success (r : Reading)
  | failure (f : FailureReason)
deriving DecidableEq, Repr

/-- The `error` field the output layer maps an outcome to (R189, D34). -/
def errorField : AcquisitionOutcome → String
  | .success _ => ""
  | .failure .noData => "NO_DATA"
  | .failure .gpioInitFailed => "GPIO_INIT_FAILED"
  | .failure .invalidPin => "INVALID_GPIO"

/-- An acquisition so far: its outcome, or none while it is not finished (R241: a host with no more samples to give leaves
the block RUNNING, neither a verdict nor a fault); what the host did; the block it leaves. -/
structure Acquisition where
  outcome : Option AcquisitionOutcome
  actions : List HostAction
  block : State
deriving DecidableEq, Repr

/-- Samples of the line, one per `TICK_PERIOD`, until `done = 1` or the line gives no more (R183, R184). -/
def sampleUntilDone : List Level → State → List HostAction × State
  | [], s => ([], s)
  | l :: ls, s =>
    if s.isDone then ([], s)
    else
      let rest := sampleUntilDone ls (s.sampleWord Config.params l)
      (.give (sampleInstr l) :: .waitTick :: rest.1, rest.2)

/-- The start handshake: output mode, LOW for the hold, START, and release to input mode (R183, R188). -/
def handshakeActions : List HostAction :=
  [.setMode .output, .writePin .low, .sleepMillis Config.params.handshakeHoldMs, .give .start, .setMode .input]

/-- One attempt, from the handshake to `done = 1` (R183). -/
def attempt (line : List Level) (s : State) : List HostAction × State :=
  let rest := sampleUntilDone line s.startWord
  (handshakeActions ++ rest.1, rest.2)

/-- The pause between two attempts, none after the last one (R183, R187, D30). -/
def pauseActions (left : Nat) : List HostAction :=
  if left = 0 then [] else [.sleepMillis Config.params.retryIntervalMs]

/-- The attempts of one acquisition, at most `n`, each on its own line samples: the first VALID one ends it, and after the
last failed one the outcome is NoData (R183, R187). -/
def attempts : Nat → List (List Level) → State → Acquisition
  | 0, _, s => { outcome := some (.failure .noData), actions := [], block := s }
  | n + 1, lines, s =>
    let a := attempt (lines.headD []) s
    if a.2.isDone then
      match a.2.validReading with
      | some r => { outcome := some (.success r), actions := a.1, block := a.2 }
      | none =>
        let rest := attempts n lines.tail a.2
        { rest with actions := a.1 ++ pauseActions n ++ rest.actions }
    else { outcome := none, actions := a.1, block := a.2 }

/-- One acquisition (R183): the GPIO check, then the pin check, each ending it at once without using the block (R182); then
up to `MAX_RETRIES` attempts. `lines` is what the pin reads as in each attempt. -/
def acquire (gpioOk pinOk : Bool) (lines : List (List Level)) (s : State) : Acquisition :=
  if ¬ gpioOk then { outcome := some (.failure .gpioInitFailed), actions := [], block := s }
  else if ¬ pinOk then { outcome := some (.failure .invalidPin), actions := [], block := s }
  else attempts Config.params.maxRetries lines s

/-- One acquisition the host is asked for: whether its GPIO initialisation succeeds, whether its pin can be mapped to a line,
and what the pin reads as in each attempt. DESIGN CHOICE (log entry 16): each acquisition has its own answer of the GPIO
initialisation, so a later one may fail it after an earlier one succeeded; the spec does not say what a second one answers. -/
structure Request where
  gpioOk : Bool
  pinOk : Bool
  lines : List (List Level)
deriving DecidableEq, Repr

/-- The host's acquisitions one after another, each on the block the one before left; one that is not finished (R241) is the
last. -/
def acquisitions : List Request → State → List Acquisition
  | [], _ => []
  | r :: rs, s =>
    let a := acquire r.gpioOk r.pinOk r.lines s
    if a.outcome = none then [a] else a :: acquisitions rs a.block

/-- What the host does before it uses the block: it asserts `rst` once (R181, R231, R232). -/
def bringUpActions : List HostAction := [.give .reset]

/-- The host's whole use of the block, from power-up: `rst` once, then its acquisitions (R181, R232). That the reset comes
before the two fatal checks is the order R232 lists; R232 lets the checks come earlier too (log entry 7). -/
def hostRun (rs : List Request) (s : State) : List HostAction × List Acquisition :=
  (bringUpActions, acquisitions rs s.resetWord)

end Sys2Proof.Machine
end

