-- ==== Sys2Proof/Safety.lean ====
section
/-! DEFINITION. What claims about a run are stated in: the invariants of R28 and R29, the range of every register (R21), and
what an ended attempt's registers say (R200). -/

namespace Sys2Proof.Safety

open Sys2Proof.Machine

variable {wW hW : Nat}

/-- The legal values of every register (R21, column "legal values"; R53), and the Frame's canonical form. -/
abbrev LegalRegisters (P : Params) (s : State wW hW) : Prop :=
  s.wdCount.toNat ≤ P.watchdogLimit ∧ s.highCount.toNat ≤ P.pulseAbortLength ∧ s.pulseIndex.toNat ≤ 43 ∧
    s.bits.toNat ≤ 7 ∧ s.frame.wf

/-- The data bits held and stored after `p` pulses (R28: `p <= 2 ? 0 : p - 2`). -/
def dataPulses (p : Nat) : Nat := p - 2

/-- What holds in RUNNING at every clock edge (R28). -/
abbrev RunningInv (P : Params) (s : State wW hW) : Prop :=
  s.wdCount.toNat < P.watchdogLimit ∧ s.highCount.toNat < P.pulseAbortLength ∧ s.pulseIndex.toNat ≤ 42 ∧
    s.bits.toNat = dataPulses s.pulseIndex.toNat % 8 ∧
    (∀ k : Fin 5, dataPulses s.pulseIndex.toNat / 8 ≤ k.val → s.frame.read k.val = 0) ∧
    s.result = .none ∧ s.endCause = .none

/-- `acc` holds at most `bits` bits, so a shift loses none (R140). -/
abbrev AccInv (s : State wW hW) : Prop := s.acc.toNat < 2 ^ s.bits.toNat

/-- While IDLE every register holds its reset value (R29). -/
abbrev IdleInv (s : State wW hW) : Prop :=
  s = s.clearRegisters .idle

/-- What an ended attempt's registers say of its cause (R200, R204, R163). -/
abbrev DoneInv (P : Params) (s : State wW hW) : Prop :=
  s.endCause ≠ .none ∧ s.result = s.verdict s.endCause ∧
    (s.endCause = .abort → s.highCount.toNat = P.pulseAbortLength ∧ s.pulseIndex.toNat ≤ 42) ∧
    (s.endCause = .watchdog → s.wdCount.toNat = P.watchdogLimit ∧ s.highCount.toNat < P.pulseAbortLength ∧
      s.pulseIndex.toNat ≤ 42) ∧
    (s.endCause = .unclassifiable → s.highCount.toNat = 0 ∧ 3 ≤ s.pulseIndex.toNat ∧ s.pulseIndex.toNat ≤ 42) ∧
    (s.endCause = .overflow → s.highCount.toNat = 0 ∧ s.pulseIndex.toNat = 43) ∧
    (s.pulseIndex.toNat < 42 → s.frame.read 4 = 0)

/-- The invariant of every run from RESET: the register ranges, and the rules of the state the block is in (R28, R29). -/
abbrev Inv (P : Params) (s : State wW hW) : Prop :=
  LegalRegisters P s ∧ AccInv s ∧ (s.state = .idle → IdleInv s) ∧ (s.state = .running → RunningInv P s) ∧
    (s.state = .done → DoneInv P s)

/-- The byte of the Frame SAMPLE_LOW stores to, if it stores one: the pulse it ends is a classified data pulse that brings
`bits` to 8, and the index is the one `byteStore` uses (R147). -/
def lowStoreIndex (P : Params) (s : State wW hW) : Option (Fin 5) :=
  if s.state = .running ∧ s.highCount.toNat ≠ 0 ∧ Config.handshakePulses < (countUp s.pulseIndex).toNat ∧
      (countUp s.pulseIndex).toNat ≤ Config.handshakePulses + Config.dataBits ∧
      classify P s.highCount.toNat ≠ .unclassifiable ∧ countUp s.bits = 8
  then byteIndex (countUp s.pulseIndex) else none

/-- A sample's registers after its level is processed, with the watchdog rule's own effect where this was sample number
`WATCHDOG_LIMIT` (R126; 50000 for this hardware). -/
def withWatchdog (u : State) : State :=
  if u.wdCount = 50000#16 then
    { u with state := .done, endCause := .watchdog, result := u.verdict .watchdog }
  else u

/-- The data bit of a classified pulse: 1 from 30 samples on (R145). -/
def pulseBit (d : Nat) : Nat := if 30 ≤ d then 1 else 0

/-- `acc` with one more data bit at bit 0, in exact arithmetic modulo 256 (R146). -/
def shifted (acc : BitVec 8) (d : Nat) : BitVec 8 := BitVec.ofNat 8 (2 * acc.toNat + pulseBit d)

/-- The samples of pulses of the given durations, each ended by one LOW sample. -/
def pulseTrain : List Nat → List Instr
  | [] => []
  | d :: ds => List.replicate d .sampleHigh ++ .sampleLow :: pulseTrain ds

/-- How many samples a pulse train takes. -/
def trainSamples : List Nat → Nat
  | [] => 0
  | d :: ds => d + 1 + trainSamples ds

/-- How many handshakes the host made: each sets the pin to output once (R183). -/
def handshakes (as : List HostAction) : Nat := as.count (.setMode .output)

/-- How many pauses of `RETRY_INTERVAL_MS` the host made (R187). -/
def pauses (as : List HostAction) : Nat := as.count (.sleepMillis 2000)

end Sys2Proof.Safety
end

