-- ==== Sys2Proof/Certificates/Slice0/Obligations.lean ====
section
/-! DEFINITION. The statements for the provers. Each docstring names the rule of spec/ the statement formalises. -/

open Sys2Proof Sys2Proof.Machine Sys2Proof.Safety

/-! Encoding and decoding. -/

/-- R71: the five rows with their masks and matches, earlier rows first; every word selects exactly one row, and decodes
to that row's operation; the rows hold 8, 4, 1, 1 and 2 words. -/
def Obligations.EveryWordSelectsExactlyItsRow : Prop :=
  opcodeRows.map (fun r => (r.mask, r.pattern, r.instr)) =
      [(0b1000#4, 0b1000#4, .reset), (0b1100#4, 0b0100#4, .start), (0b1111#4, 0b0011#4, .sampleHigh),
       (0b1111#4, 0b0010#4, .sampleLow), (0b1110#4, 0b0000#4, .nop)] ∧
    (∀ (r : OpcodeRow) (w : ControlWord), r.selects w = decide (w &&& r.mask = r.pattern)) ∧
    (∀ w : ControlWord, ∃ r, opcodeRows.filter (fun q => q.selects w) = [r] ∧ decodeWord w = r.instr) ∧
    opcodeRows.map (fun r => ((List.range 16).filter (fun n => r.selects (BitVec.ofNat 4 n))).length) = [8, 4, 1, 1, 2]

/-- R80's table, word by word: the canonical word of each operation, and the other words of its row. -/
def Obligations.WrittenWordsDecode : Prop :=
  encode .reset = 0b1000#4 ∧ encode .start = 0b0100#4 ∧ encode .sampleHigh = 0b0011#4 ∧
    encode .sampleLow = 0b0010#4 ∧ encode .nop = 0b0000#4 ∧
    [0b1000#4, 0b1001#4, 0b1010#4, 0b1011#4, 0b1100#4, 0b1101#4, 0b1110#4, 0b1111#4].map decodeWord =
      List.replicate 8 .reset ∧
    [0b0100#4, 0b0101#4, 0b0110#4, 0b0111#4].map decodeWord = List.replicate 4 .start ∧
    decodeWord 0b0011#4 = .sampleHigh ∧ decodeWord 0b0010#4 = .sampleLow ∧
    [0b0000#4, 0b0001#4].map decodeWord = List.replicate 2 .nop

/-- R70, R79: one control word in one byte. The decoder reads back what the encoder wrote, takes one byte and leaves the
rest; and a byte with a bit above the four ports is refused (log entry 5, the model's own byte layout). -/
def Obligations.EncodedOperationDecodesToItself : Prop :=
  (∀ (i : Instr) (rest : List Byte), decodeBytes ((encode i).setWidth 8 :: rest) = .ok (i, rest)) ∧
    (∀ i : Instr, decodeTableWord 8 (encode i).toNat = some i) ∧
    (∀ (b : Byte) (rest : List Byte), 16 ≤ b.toNat → decodeBytes (b :: rest) = .error .bitsAboveThePorts) ∧
    decodeBytes [] = .error .noControlWord

/-- R80, R81, R82: the control words of a stimulus program decode, in cycle order, to the expansions of its lines; and the
expansion of each line, as the table of R81 gives it. -/
def Obligations.ProgramWordsDecodeToTheExpansions : Prop :=
  (∀ ls : List Stimulus, (programWords ls).map decodeWord = ls.flatMap expand) ∧
    (∀ i : Instr, expand (.base i) = [i]) ∧
    (∀ n : Nat, expand (.hi n) = List.replicate n .sampleHigh ∧ expand (.lo n) = List.replicate n .sampleLow ∧
      expand (.idle n) = List.replicate n .nop) ∧
    (∀ d g : Nat, expand (.pulse d g) = expand (.hi d) ++ expand (.lo g)) ∧
    expand .bit0 = expand (.pulse 27 50) ∧ expand .bit1 = expand (.pulse 70 50) ∧
    (∀ v : Byte, expand (.byte v) =
      [7, 6, 5, 4, 3, 2, 1, 0].flatMap (fun i => if v.getLsbD i = true then expand .bit1 else expand .bit0)) ∧
    (∀ b0 b1 b2 b3 b4 : Byte, expand (.frame b0 b1 b2 b3 b4) =
      [b0, b1, b2, b3, b4].flatMap (fun b => expand (.byte b))) ∧
    expand .handshake = expand (.pulse 20 80) ++ expand (.pulse 80 50) ∧
    expand .lineIdle = expand (.hi 200)

/-- R82: the run-length list of a program is that program again when expanded, every count is at least 1, and two
neighbouring runs differ in their word. -/
def Obligations.RunLengthListGivesTheWordsBack : Prop :=
  ∀ ws : List ControlWord, ofRunLength (runLength ws) = ws ∧ (∀ r ∈ runLength ws, 1 ≤ r.1) ∧
    (runLength ws).IsChain (fun a b => a.2 ≠ b.2)

/-! The step. -/

/-- R70, R100: when a control word is pending, `step` is `exec` of its operation, with that word taken from the host's
input; when none is pending the word is free (log entry 1, the model's own), and the draw is counted. -/
def Obligations.StepRunsTheDecodedWord : Prop :=
  (∀ (s : State) (w : ControlWord) (ws : List ControlWord), s.stimulus = w :: ws →
      step s = exec (decodeWord w) { s with stimulus := ws }) ∧
    (∀ s : State, s.stimulus = [] →
      step s = exec (decodeWord (Config.freeControlWord s.freeWords)) { s with freeWords := s.freeWords + 1 })

/-- R70: every step takes exactly one control word, whatever the state, and answers a next state (R100: `step` is
total). -/
def Obligations.EveryStepTakesOneWordAndGoesOn : Prop :=
  ∀ s : State, ∃ t, step s = .next t ∧ t.stimulus = s.stimulus.tail ∧
    t.freeWords = (if s.stimulus = [] then s.freeWords + 1 else s.freeWords)

/-- R100: the pseudocode of `step`, port by port, for every state and every word on the ports. -/
def Obligations.StepFollowsThePortPriority : Prop :=
  ∀ (s : State) (rst start tick din : Bool) (ws : List ControlWord),
    s.stimulus = ControlWord.ofPorts rst start tick din :: ws →
    step s = .next
      (if rst = true then { s with stimulus := ws }.resetWord
       else if start = true then { s with stimulus := ws }.startWord
       else if tick = false then { s with stimulus := ws }
       else if s.state ≠ .running then { s with stimulus := ws }
       else { s with stimulus := ws }.sample Config.params (if din = true then .high else .low))

/-- R8, R82: running the words of a stimulus, one a cycle, is applying the operations they decode to, in order. -/
def Obligations.RunOfPendingWordsAppliesThemInOrder : Prop :=
  ∀ (ws rest : List ControlWord) (s : State), s.stimulus = ws ++ rest →
    Host.Core.run Sys2Proof.core ws.length s = .next ({ s with stimulus := rest }.applyAll (ws.map decodeWord))

/-- R101: the state transition table, cell by cell; RUNNING is left for DONE only by an attempt's end. -/
def Obligations.StateMovesAsTheTableSays : Prop :=
  ∀ s : State,
    (∃ t, exec .reset s = .next t ∧ t.state = .idle) ∧
    (s.state = .running → exec .start s = .next s) ∧
    (s.state ≠ .running → ∃ t, exec .start s = .next t ∧ t.state = .running) ∧
    (∀ i, i = .sampleHigh ∨ i = .sampleLow →
      (s.state ≠ .running → exec i s = .next s) ∧
      (s.state = .running → ∃ t, exec i s = .next t ∧
        (t.state = .running ∨ (t.state = .done ∧ ∃ (u : State) (e : EndCause), e ≠ .none ∧ t = u.finish e)))) ∧
    exec .nop s = .next s

/-! RESET, START, NOP. -/

/-- R102: RESET, in every state and for every word with `rst = 1`. -/
def Obligations.ResetClearsEveryRegister : Prop :=
  ∀ s : State,
    exec .reset s = .next { state := .idle, wdCount := 0, highCount := 0, pulseIndex := 0, acc := 0, bits := 0,
                            frame := [], result := .none, endCause := .none,
                            stimulus := s.stimulus, freeWords := s.freeWords } ∧
    (∀ t, exec .reset s = .next t → (∀ k : Fin 5, t.frame.read k.val = 0) ∧
      t.outputs.busy = false ∧ t.outputs.done = false ∧ t.outputs.checksumOk = false ∧
      t.outputs.frameComplete = false ∧ t.outputs.tempNeg = false) ∧
    (∀ (start tick din : Bool) (ws : List ControlWord), s.stimulus = ControlWord.ofPorts true start tick din :: ws →
      step s = exec .reset { s with stimulus := ws })

/-- R230: the values RESET leaves, one register at a time, and that the block then waits in IDLE for START: no other
operation changes a register. The model's `State.reset` holds the same values. -/
def Obligations.AfterResetTheBlockWaitsInIdle : Prop :=
  ∀ s : State, ∃ t, exec .reset s = .next t ∧
    t.state = .idle ∧ t.wdCount = 0 ∧ t.highCount = 0 ∧ t.pulseIndex = 0 ∧ t.acc = 0 ∧ t.bits = 0 ∧
    (∀ k : Fin 5, t.frame.read k.val = 0x00#8) ∧ t.result = .none ∧ t.endCause = .none ∧
    t = { State.reset with stimulus := s.stimulus, freeWords := s.freeWords } ∧
    (∀ i : Instr, i ≠ .start → exec i t = .next t)

/-- R231, R232: from power-up, whatever the registers hold, one word with `rst = 1` gives the reset state. Power-up's values
are free (log entry 2). -/
def Obligations.PowerUpNeedsOneReset : Prop :=
  ∀ (w : ControlWord) (ws : List ControlWord), ControlWord.rst w = true →
    step (State.powerUp (w :: ws)) = .next { State.reset with stimulus := ws }

/-- R103: START from IDLE or DONE begins an attempt with every register clear; in RUNNING it returns the state; its own
`tick` and `din` are no sample. -/
def Obligations.StartBeginsAFreshAttempt : Prop :=
  ∀ s : State,
    (s.state = .running → exec .start s = .next s) ∧
    (s.state ≠ .running →
      exec .start s = .next { state := .running, wdCount := 0, highCount := 0, pulseIndex := 0, acc := 0, bits := 0,
                              frame := [], result := .none, endCause := .none,
                              stimulus := s.stimulus, freeWords := s.freeWords }) ∧
    (s.state ≠ .running → ∀ t, exec .start s = .next t → (∀ k : Fin 5, t.frame.read k.val = 0) ∧
      t.outputs.busy = true ∧ t.outputs.done = false ∧ t.outputs.checksumOk = false ∧
      t.outputs.frameComplete = false ∧ t.outputs.tempNeg = false) ∧
    (∀ (tick din : Bool) (ws : List ControlWord), s.stimulus = ControlWord.ofPorts false true tick din :: ws →
      step s = exec .start { s with stimulus := ws })

/-- R104: START in RUNNING changes nothing, whatever its `tick` and `din`; RUNNING is left only through an attempt's end or
RESET; in DONE nothing but RESET and START changes a register. -/
def Obligations.AttemptIsNotCancelledByStart : Prop :=
  ∀ s : State,
    (s.state = .running → ∀ (tick din : Bool) (ws : List ControlWord),
      s.stimulus = ControlWord.ofPorts false true tick din :: ws → step s = .next { s with stimulus := ws }) ∧
    (s.state = .running → ∀ (i : Instr) (t : State), exec i s = .next t → t.state ≠ .running →
      i = .reset ∨ ∃ (u : State) (e : EndCause), e ≠ .none ∧ t = u.finish e) ∧
    (s.state = .done → ∀ i : Instr, i ≠ .reset → i ≠ .start → exec i s = .next s)

/-- R105: NOP returns the state it is given, in every state and for both its words. -/
def Obligations.NopChangesNothing : Prop :=
  ∀ s : State, exec .nop s = .next s ∧
    (∀ (din : Bool) (ws : List ControlWord), s.stimulus = ControlWord.ofPorts false false false din :: ws →
      step s = .next { s with stimulus := ws })

/-- R105, R73: any number of NOPs between other operations has no effect: a run with its NOPs left out ends in the same
registers. -/
def Obligations.NopsBetweenSamplesHaveNoEffect : Prop :=
  ∀ (is : List Instr) (s : State), s.applyAll is = s.applyAll (is.filter (fun i => i ≠ .nop))

/-- R106: a sample in IDLE or DONE changes nothing. -/
def Obligations.SamplesOutsideAnAttemptDoNothing : Prop :=
  ∀ s : State, s.state ≠ .running → exec .sampleHigh s = .next s ∧ exec .sampleLow s = .next s

/-! The pulse sampler. -/

/-- R121, R125: SAMPLE_HIGH in RUNNING: both counters one up; at a run of 200 the attempt ends with ABORT; otherwise at the
50000th sample with WATCHDOG; otherwise it goes on. -/
def Obligations.SampleHighCountsAndMayEndTheAttempt : Prop :=
  ∀ s : State, s.state = .running → s.wdCount.toNat < 65535 → s.highCount.toNat < 255 →
    exec .sampleHigh s = .next
      (let u := { s with wdCount := s.wdCount + 1, highCount := s.highCount + 1 }
       if s.highCount + 1 = 200#8 then
         { u with state := .done, endCause := .abort, result := u.verdict .abort }
       else if s.wdCount + 1 = 50000#16 then
         { u with state := .done, endCause := .watchdog, result := u.verdict .watchdog }
       else u)

/-- R130: a LOW sample with no open run changes only `wd_count`; it emits nothing. Where it is sample number 50000 the
watchdog rule then ends the attempt (R126). -/
def Obligations.LowSampleInALowRunOnlyCounts : Prop :=
  ∀ s : State, s.state = .running → s.highCount = 0 → s.wdCount.toNat < 65535 →
    (s.wdCount + 1 ≠ 50000#16 → exec .sampleLow s = .next { s with wdCount := s.wdCount + 1 }) ∧
    (s.wdCount + 1 = 50000#16 →
      exec .sampleLow s = .next { s with wdCount := s.wdCount + 1, state := .done, endCause := .watchdog,
                                         result := s.verdict .watchdog })

/-- R123: a pulse is emitted exactly when a LOW sample finds an open run: `pulse_index` counts it and `high_count` is 0
after it; a HIGH sample emits none; and in a running attempt the duration is 1 to 199. -/
def Obligations.PulseIsEmittedExactlyWhenARunEnds : Prop :=
  ∀ s t : State, s.state = .running → s.pulseIndex.toNat < 63 →
    (exec .sampleLow s = .next t → s.highCount ≠ 0 → t.pulseIndex = s.pulseIndex + 1 ∧ t.highCount = 0) ∧
    (exec .sampleLow s = .next t → s.highCount = 0 → t.pulseIndex = s.pulseIndex ∧ t.highCount = 0) ∧
    (exec .sampleHigh s = .next t → t.pulseIndex = s.pulseIndex) ∧
    (RunningInv Config.params s → s.highCount ≠ 0 → 1 ≤ s.highCount.toNat ∧ s.highCount.toNat ≤ 199)

/-- R124: every sample in RUNNING adds 1 to `wd_count`; no other operation does, and no sample does outside RUNNING. -/
def Obligations.EverySampleConsumesOneTick : Prop :=
  ∀ (s : State) (i : Instr), s.wdCount.toNat < 65535 →
    (s.state = .running → i = .sampleHigh ∨ i = .sampleLow →
      ∃ t, exec i s = .next t ∧ t.wdCount.toNat = s.wdCount.toNat + 1) ∧
    (s.state ≠ .running ∨ i = .nop ∨ i = .start ∨ i = .reset →
      ∃ t, exec i s = .next t ∧ (t.wdCount = s.wdCount ∨ ((i = .reset ∨ i = .start) ∧ t.wdCount = 0)))

/-- R127: the order of one sample's effects, at sample number 50000: a HIGH sample that reaches both limits reports ABORT; a
LOW sample whose pulse ends the attempt reports that cause; one that stores the last byte reports WATCHDOG, its verdict
seeing the store. -/
def Obligations.OneSampleReportsInTheStatedOrder : Prop :=
  ∀ s : State, s.state = .running → s.wdCount = 49999#16 →
    (s.highCount = 199#8 → ∃ t, exec .sampleHigh s = .next t ∧ t.wdCount = 50000#16 ∧ t.endCause = .abort) ∧
    (85 ≤ s.highCount.toNat → 2 ≤ s.pulseIndex.toNat → s.pulseIndex.toNat ≤ 41 →
      ∃ t, exec .sampleLow s = .next t ∧ t.wdCount = 50000#16 ∧ t.endCause = .unclassifiable) ∧
    (s.highCount ≠ 0 → s.pulseIndex = 42#6 →
      ∃ t, exec .sampleLow s = .next t ∧ t.wdCount = 50000#16 ∧ t.endCause = .overflow) ∧
    (s.highCount ≠ 0 → s.highCount.toNat < 85 → s.pulseIndex = 41#6 → s.bits = 7#4 →
      ∃ t, exec .sampleLow s = .next t ∧ t.wdCount = 50000#16 ∧ t.endCause = .watchdog ∧
        t.frame.read 4 = shifted s.acc s.highCount.toNat ∧
        t.result = if checksumOk t.frame then .valid else .invalid)

/-- R128: a run the watchdog cuts off is no pulse: it keeps its count in DONE, and nothing is counted, assembled or
stored. -/
def Obligations.WatchdogLeavesTheOpenRunUncounted : Prop :=
  ∀ s : State, s.state = .running → s.wdCount = 49999#16 → s.highCount.toNat < 199 →
    exec .sampleHigh s = .next { s with wdCount := 50000#16, highCount := s.highCount + 1, state := .done,
                                        endCause := .watchdog, result := s.verdict .watchdog }

/-! The bit-frame accumulator. -/

/-- R143, R144: the LOW sample that ends pulse 1 or 2 counts it and discards it, whatever its duration; pulse 2 clears the
accumulator. -/
def Obligations.HandshakePulsesAreDiscarded : Prop :=
  ∀ s : State, s.state = .running → s.wdCount.toNat < 65535 → s.highCount ≠ 0 →
    (s.pulseIndex = 0 →
      exec .sampleLow s = .next (withWatchdog { s with wdCount := s.wdCount + 1, highCount := 0, pulseIndex := 1 })) ∧
    (s.pulseIndex = 1 →
      exec .sampleLow s = .next (withWatchdog { s with wdCount := s.wdCount + 1, highCount := 0, pulseIndex := 2,
                                                       acc := 0, bits := 0 }))

/-- R149: the durations of pulses 1 and 2 change nothing the decoder keeps: two blocks that differ only in the length of the
open run are the same after the LOW sample that ends it. -/
def Obligations.HandshakeDurationIsForgotten : Prop :=
  ∀ (s : State) (d : BitVec 8), s.state = .running → s.pulseIndex.toNat < 2 → s.highCount ≠ 0 → d ≠ 0 →
    ∃ t, exec .sampleLow s = .next t ∧ exec .sampleLow { s with highCount := d } = .next t

/-- R146: the LOW sample that ends a classified data pulse, of up to 84 samples, where the byte is not yet full: its bit
enters `acc` at bit 0, the others move one place up, and `bits` counts it. -/
def Obligations.DataBitIsShiftedIn : Prop :=
  ∀ s : State, s.state = .running → s.wdCount.toNat < 65535 → s.highCount ≠ 0 → s.highCount.toNat < 85 →
    2 ≤ s.pulseIndex.toNat → s.pulseIndex.toNat ≤ 41 → s.bits.toNat < 7 →
    exec .sampleLow s = .next (withWatchdog
      { s with wdCount := s.wdCount + 1, highCount := 0, pulseIndex := s.pulseIndex + 1,
               acc := shifted s.acc s.highCount.toNat, bits := s.bits + 1 })

/-- R147: the eighth bit stores the byte at index `(p / 8) - 1` and clears the accumulator; every other byte reads as
before. In a running attempt the eighth bit comes exactly at pulses 10, 18, 26, 34 and 42, where the index is also
`(p - 3) / 8`. -/
def Obligations.EighthBitStoresTheByte : Prop :=
  (∀ s : State, s.state = .running → s.wdCount.toNat < 65535 → s.highCount ≠ 0 → s.highCount.toNat < 85 →
    7 ≤ s.pulseIndex.toNat → s.pulseIndex.toNat ≤ 41 → s.bits = 7#4 →
    (exec .sampleLow s = .next (withWatchdog
      { s with wdCount := s.wdCount + 1, highCount := 0, pulseIndex := s.pulseIndex + 1, acc := 0, bits := 0,
               frame := s.frame.write ((s.pulseIndex.toNat + 1) / 8 - 1) (shifted s.acc s.highCount.toNat) })) ∧
    (∀ t, exec .sampleLow s = .next t →
      t.frame.read ((s.pulseIndex.toNat + 1) / 8 - 1) = shifted s.acc s.highCount.toNat ∧
      (∀ a : Nat, a ≠ (s.pulseIndex.toNat + 1) / 8 - 1 → t.frame.read a = s.frame.read a)) ∧
    (s.pulseIndex.toNat + 1) / 8 - 1 < 5 ∧
    (RunningInv Config.params s → (s.pulseIndex.toNat + 1) / 8 - 1 = (s.pulseIndex.toNat + 1 - 3) / 8)) ∧
  (∀ s : State, RunningInv Config.params s → (s.bits = 7#4 ↔ s.pulseIndex.toNat + 1 ∈ [10, 18, 26, 34, 42]))

/-- R147, R53: the eighth bit of every data pulse, 3 to 42, stores at the index the model computes, `lowStoreIndex`, which is
`byteIndex` of the pulse counted: the whole byte at that index where there is one, and no byte where there is none; every
other effect of the pulse happens in both cases. From pulse 8 on the index is `(p / 8) - 1`. Before it, in states no run from
RESET reaches, it is the free value of log entry 3 (the model's choice). -/
def Obligations.EighthBitStoresAtItsByteIndex : Prop :=
  ∀ s : State, s.state = .running → s.wdCount.toNat < 65535 → s.highCount ≠ 0 → s.highCount.toNat < 85 →
    2 ≤ s.pulseIndex.toNat → s.pulseIndex.toNat ≤ 41 → s.bits = 7#4 →
    lowStoreIndex Config.params s = byteIndex (s.pulseIndex + 1) ∧
    exec .sampleLow s = .next (withWatchdog
      { s with wdCount := s.wdCount + 1, highCount := 0, pulseIndex := s.pulseIndex + 1, acc := 0, bits := 0,
               frame := (byteIndex (s.pulseIndex + 1)).elim s.frame
                 (fun k => s.frame.write k.val (shifted s.acc s.highCount.toNat)) }) ∧
    (∀ (t : State) (a : Nat), exec .sampleLow s = .next t →
      (∀ k, byteIndex (s.pulseIndex + 1) = some k → a ≠ k.val) → t.frame.read a = s.frame.read a) ∧
    (7 ≤ s.pulseIndex.toNat →
      ∃ k, byteIndex (s.pulseIndex + 1) = some k ∧ k.val = (s.pulseIndex.toNat + 1) / 8 - 1)

/-- R145: the classes of every duration, and the LOW sample that ends a data pulse of 85 samples or more: End at once, with
INVALID, nothing accumulated. In a running attempt no run is longer than 199 samples. -/
def Obligations.UnclassifiableDataPulseEndsTheAttempt : Prop :=
  (∀ d : Nat, classify Config.params d =
      if d < 30 then .bit0 else if d < 85 then .bit1 else .unclassifiable) ∧
    (∀ s : State, s.state = .running → s.wdCount.toNat < 65535 → 85 ≤ s.highCount.toNat →
      2 ≤ s.pulseIndex.toNat → s.pulseIndex.toNat ≤ 41 →
      exec .sampleLow s = .next { s with wdCount := s.wdCount + 1, highCount := 0, pulseIndex := s.pulseIndex + 1,
                                         state := .done, endCause := .unclassifiable, result := .invalid }) ∧
    (∀ s : State, RunningInv Config.params s → s.highCount.toNat ≤ 199)

/-- R142: the 41st data pulse, of any duration, ends the attempt with OVERFLOW and INVALID; it is counted, and neither
classified nor accumulated. -/
def Obligations.FortyFirstDataPulseOverflows : Prop :=
  ∀ s : State, s.state = .running → s.wdCount.toNat < 65535 → s.highCount ≠ 0 → s.pulseIndex = 42#6 →
    exec .sampleLow s = .next { s with wdCount := s.wdCount + 1, highCount := 0, pulseIndex := 43#6,
                                       state := .done, endCause := .overflow, result := .invalid }

/-- R55: the bits of forty data pulses, of any durations below 85, land MSB first: data pulse `n` (from 0 here) in byte
`n / 8`, bit `7 - n mod 8`, for whatever the Frame and the earlier attempt held, as long as the watchdog does not end the
attempt. -/
def Obligations.FortyDataBitsLandMostSignificantFirst : Prop :=
  ∀ (s : State) (ds : List Nat), s.state = .running → s.pulseIndex = 2#6 → s.bits = 0#4 → s.highCount = 0#8 →
    ds.length = 40 → (∀ d ∈ ds, 1 ≤ d ∧ d < 85) → s.wdCount.toNat + trainSamples ds < 50000 →
    ∃ t, s.applyAll (pulseTrain ds) = t ∧ t.state = .running ∧ t.pulseIndex = 42#6 ∧ t.bits = 0#4 ∧
      t.wdCount.toNat = s.wdCount.toNat + trainSamples ds ∧
      ∀ n : Nat, n < 40 → (t.frame.read (n / 8)).getLsbD (7 - n % 8) = decide (30 ≤ ds.getD n 0)

/-! The validator, the outputs and the reading. -/

/-- R160, R161, R164, R165: the checksum, its acceptance, and the conversion, as the outputs show them in every state. -/
def Obligations.OutputsShowChecksumAndConversion : Prop :=
  ∀ s : State,
    s.outputs.checksumCalc.toNat =
      ((s.frame.read 0).toNat + (s.frame.read 1).toNat + (s.frame.read 2).toNat + (s.frame.read 3).toNat) % 256 ∧
    (s.outputs.checksumOk = true ↔
      s.outputs.checksumCalc = s.frame.read 4 ∧ s.outputs.checksumCalc ≠ 0) ∧
    s.outputs.humidityX10.toNat = (s.frame.read 0).toNat * 256 + (s.frame.read 1).toNat ∧
    (s.outputs.tempNeg = true ↔ s.frame.read 2 = 0x80#8) ∧
    s.outputs.tempMagX10 = s.frame.read 3

/-- R40: the output ports that are registers or count pulses. `frame_complete` is 1 exactly from 42 pulses on (R148). -/
def Obligations.OutputsShowTheRegisters : Prop :=
  ∀ s : State,
    (s.outputs.busy = true ↔ s.state = .running) ∧ (s.outputs.done = true ↔ s.state = .done) ∧
    s.outputs.result = resultCode s.result ∧ s.outputs.endCause = causeCode s.endCause ∧
    s.outputs.frame0 = s.frame.read 0 ∧ s.outputs.frame1 = s.frame.read 1 ∧ s.outputs.frame2 = s.frame.read 2 ∧
    s.outputs.frame3 = s.frame.read 3 ∧ s.outputs.frame4 = s.frame.read 4 ∧
    s.outputs.dataBits.toNat = (if s.pulseIndex.toNat ≤ 2 then 0 else min (s.pulseIndex.toNat - 2) 40) ∧
    (s.outputs.frameComplete = true ↔ 42 ≤ s.pulseIndex.toNat) ∧
    s.outputs.dbgState = stateCode s.state ∧ s.outputs.dbgWdCount = s.wdCount ∧
    s.outputs.dbgHighCount = s.highCount ∧ s.outputs.dbgPulseIndex = s.pulseIndex ∧ s.outputs.dbgAcc = s.acc ∧
    s.outputs.dbgBits = s.bits

/-- R42: no state is hidden: two blocks with the same outputs hold the same registers. The premises say only that both
Frames are in the model's canonical form (log entry 10), which every step keeps. -/
def Obligations.EveryRegisterIsVisible : Prop :=
  ∀ s t : State, s.frame.wf → t.frame.wf → s.outputs = t.outputs →
    s = { t with stimulus := s.stimulus, freeWords := s.freeWords }

/-- R75, R76, R77: the codes of the status registers; each value reads back from its code, and the reserved codes are
refused (R78). -/
def Obligations.StatusCodesReadBack : Prop :=
  (stateCode .idle = 0#2 ∧ stateCode .running = 1#2 ∧ stateCode .done = 2#2) ∧
    (resultCode .none = 0#2 ∧ resultCode .valid = 1#2 ∧ resultCode .invalid = 2#2 ∧ resultCode .timeout = 3#2) ∧
    (causeCode .none = 0#3 ∧ causeCode .abort = 1#3 ∧ causeCode .watchdog = 2#3 ∧ causeCode .unclassifiable = 3#3 ∧
      causeCode .overflow = 4#3) ∧
    (∀ r, stateOfCode (stateCode r) = some r) ∧ (∀ v, resultOfCode (resultCode v) = v) ∧
    (∀ e, causeOfCode (causeCode e) = some e) ∧
    stateOfCode 3#2 = none ∧ causeOfCode 5#3 = none ∧ causeOfCode 6#3 = none ∧ causeOfCode 7#3 = none

/-- R162: every Frame whose payload sum is a multiple of 256 is rejected, whatever its checksum byte. -/
def Obligations.PayloadSumMultipleOf256IsRejected : Prop :=
  ∀ m : Memory,
    ((m.read 0).toNat + (m.read 1).toNat + (m.read 2).toNat + (m.read 3).toNat) % 256 = 0 → checksumOk m = false

/-- R163: in every state the invariant allows, an incomplete frame (R148) has `frame[4] = 0` and is not accepted, since no
Frame with a zero fifth byte is; an attempt that ended so has no VALID verdict, and its loop end gives TIMEOUT (R166). -/
def Obligations.IncompleteFrameIsNeverAccepted : Prop :=
  (∀ m : Memory, m.read 4 = 0 → checksumOk m = false) ∧
    (∀ s : State, Inv Config.params s → s.outputs.frameComplete = false →
      s.frame.read 4 = 0 ∧ s.outputs.checksumOk = false ∧ s.result ≠ .valid ∧
      (s.state = .done → s.endCause = .abort ∨ s.endCause = .watchdog → s.result = .timeout))

/-- R166: the verdict of an ended attempt, for each cause and either completeness, on the state after the ending sample. -/
def Obligations.VerdictFollowsCauseAndFrame : Prop :=
  ∀ (s : State) (e : EndCause),
    (e = .unclassifiable ∨ e = .overflow → (s.finish e).result = .invalid) ∧
    (e = .abort ∨ e = .watchdog → s.outputs.dataBits = 40#6 →
      (s.finish e).result = if s.outputs.checksumOk then .valid else .invalid) ∧
    (e = .abort ∨ e = .watchdog → s.outputs.dataBits ≠ 40#6 → (s.finish e).result = .timeout)

/-- R168: byte 2 enters the verdict only through the checksum, and the reading, humidity and temperature and sign, only
through the test for 0x80; any other value reads as a positive temperature, and 0x80 as a negative one. -/
def Obligations.ByteTwoMattersOnlyForChecksumAndSign : Prop :=
  (∀ (s t : State) (e : EndCause), s.pulseIndex = t.pulseIndex → checksumCalc s.frame = checksumCalc t.frame →
      s.frame.read 4 = t.frame.read 4 → s.verdict e = t.verdict e) ∧
    (∀ s : State, s.frame.read 2 ≠ 0x80#8 →
      s.reading.tempNeg = false ∧ s.reading.celsius = ((s.frame.read 3).toNat : ℚ) / 10) ∧
    (∀ s : State, s.frame.read 2 = 0x80#8 →
      s.reading.tempNeg = true ∧ s.reading.celsius = -(((s.frame.read 3).toNat : ℚ) / 10)) ∧
    (∀ s t : State, s.frame.read 0 = t.frame.read 0 → s.frame.read 1 = t.frame.read 1 →
      s.frame.read 3 = t.frame.read 3 → (s.frame.read 2 = 0x80#8 ↔ t.frame.read 2 = 0x80#8) → s.reading = t.reading)

/-- R169, R167: there is no range check: any complete frame whose fifth byte is its nonzero payload sum is VALID at a loop
end, and the reading is exact. -/
def Obligations.EveryChecksummedPayloadIsValid : Prop :=
  ∀ (s : State) (e : EndCause) (b0 b1 b2 b3 : Byte), e = .abort ∨ e = .watchdog → s.pulseIndex = 42#6 →
    (b0.toNat + b1.toNat + b2.toNat + b3.toNat) % 256 ≠ 0 →
    s.frame = Memory.ofBytes b0 b1 b2 b3 (BitVec.ofNat 8 (b0.toNat + b1.toNat + b2.toNat + b3.toNat)) →
    ∃ r, (s.finish e).validReading = some r ∧
      r.humidityPercent = ((b0.toNat * 256 + b1.toNat : Nat) : ℚ) / 10 ∧
      r.celsius = (if b2 = 0x80#8 then -((b3.toNat : ℚ) / 10) else (b3.toNat : ℚ) / 10)

/-! The end of an attempt. -/

/-- R204: `finish` writes three registers; after an ending `high_count` is 200 for ABORT and 0 after a pulse; and no later
sample has any effect. -/
def Obligations.AttemptEndWritesThreeRegisters : Prop :=
  (∀ (s : State) (e : EndCause),
      s.finish e = { s with state := .done, endCause := e, result := s.verdict e }) ∧
    (∀ (s t : State) (i : Instr), s.state = .running → RunningInv Config.params s → exec i s = .next t →
      t.state = .done →
      t.wdCount.toNat = s.wdCount.toNat + 1 ∧ t.result = t.verdict t.endCause ∧
      (t.endCause = .abort → t.highCount = 200#8) ∧
      (t.endCause = .unclassifiable ∨ t.endCause = .overflow → t.highCount = 0 ∧ t.pulseIndex = s.pulseIndex + 1 ∧
        t.acc = s.acc ∧ t.bits = s.bits ∧ t.frame = s.frame) ∧
      exec .sampleHigh t = .next t ∧ exec .sampleLow t = .next t)

/-- R200: which sample ends a running attempt, with which cause and which verdict: the table, both ways; and nothing ends one
outside RUNNING. -/
def Obligations.EveryEndingHasItsCauseAndVerdict : Prop :=
  (∀ (s t : State) (i : Instr), s.state = .running → RunningInv Config.params s → exec i s = .next t →
    (t.state = .done ↔ t.endCause ≠ .none) ∧
    (t.endCause = .abort ↔ i = .sampleHigh ∧ s.highCount = 199#8) ∧
    (t.endCause = .unclassifiable ↔
      i = .sampleLow ∧ 85 ≤ s.highCount.toNat ∧ 2 ≤ s.pulseIndex.toNat ∧ s.pulseIndex.toNat ≤ 41) ∧
    (t.endCause = .overflow ↔ i = .sampleLow ∧ s.highCount ≠ 0 ∧ s.pulseIndex = 42#6) ∧
    (t.endCause = .watchdog ↔ (i = .sampleHigh ∨ i = .sampleLow) ∧
      s.wdCount = 49999#16 ∧ t.endCause ≠ .abort ∧ t.endCause ≠ .unclassifiable ∧ t.endCause ≠ .overflow) ∧
    (t.endCause = .unclassifiable ∨ t.endCause = .overflow → t.result = .invalid) ∧
    (t.endCause = .abort ∨ t.endCause = .watchdog →
      t.result = if t.pulseIndex.toNat < 42 then .timeout else if checksumOk t.frame then .valid else .invalid)) ∧
  (∀ (s t : State) (i : Instr), s.state ≠ .running → exec i s = .next t → t.state = .done → t = s)

/-- R205: DONE holds through any run without START and RESET, and START leaves nothing of the ended attempt. -/
def Obligations.DoneHoldsUntilStartOrReset : Prop :=
  (∀ (is : List Instr) (s : State), s.state = .done → (∀ i ∈ is, i ≠ .start ∧ i ≠ .reset) → s.applyAll is = s) ∧
    (∀ s t : State, s.state = .done → t.state = .done → s.stimulus = t.stimulus → s.freeWords = t.freeWords →
      exec .start s = exec .start t)

/-! Frames. -/

/-- R23: what no operation touches: the host's input; and SAMPLE_HIGH's frame: the pulse count, the accumulator and every
byte of the Frame are as before, and the verdict registers change only with the state. -/
def Obligations.SampleHighFrame : Prop :=
  ∀ s t : State, exec .sampleHigh s = .next t →
    t.pulseIndex = s.pulseIndex ∧ t.acc = s.acc ∧ t.bits = s.bits ∧ (∀ a : Nat, t.frame.read a = s.frame.read a) ∧
    t.frame = s.frame ∧ t.stimulus = s.stimulus ∧ t.freeWords = s.freeWords ∧
    (t.state = .running → t.result = s.result ∧ t.endCause = s.endCause)

/-- SAMPLE_LOW's frame: the one byte it may store to is `lowStoreIndex`, every other byte reads as before; with no open run
the pulse count and the accumulator are as before; the verdict registers change only with the state. -/
def Obligations.SampleLowFrame : Prop :=
  ∀ s t : State, exec .sampleLow s = .next t →
    (∀ a : Nat, (∀ k, lowStoreIndex Config.params s = some k → a ≠ k.val) → t.frame.read a = s.frame.read a) ∧
    (s.highCount = 0 → t.pulseIndex = s.pulseIndex ∧ t.acc = s.acc ∧ t.bits = s.bits ∧ t.highCount = 0) ∧
    t.stimulus = s.stimulus ∧ t.freeWords = s.freeWords ∧
    (t.state = .running → t.result = s.result ∧ t.endCause = s.endCause)

/-- RESET's and START's frame: the host's input, and nothing else, is as before; where START is ignored everything is; NOP's
frame is everything. -/
def Obligations.ControlWordsFrame : Prop :=
  ∀ (s t : State) (i : Instr), i = .reset ∨ i = .start ∨ i = .nop → exec i s = .next t →
    t.stimulus = s.stimulus ∧ t.freeWords = s.freeWords ∧
    (i = .nop ∨ (i = .start ∧ s.state = .running) →
      t = s ∧ ∀ a : Nat, t.frame.read a = s.frame.read a) ∧
    (i = .reset ∨ (i = .start ∧ s.state ≠ .running) → ∀ a : Nat, t.frame.read a = 0)

/-- R51: the Frame is written in exactly two ways: all five bytes to 0 by RESET and START, or one whole byte, `acc` with the
eighth bit, by the byte store of SAMPLE_LOW. -/
def Obligations.FrameIsWrittenInTwoWays : Prop :=
  ∀ (s t : State) (i : Instr), exec i s = .next t →
    t.frame = s.frame ∨
    ((i = .reset ∨ i = .start) ∧ ∀ k : Fin 5, t.frame.read k.val = 0) ∨
    (i = .sampleLow ∧ ∃ k, lowStoreIndex Config.params s = some k ∧
      t.frame = s.frame.write k.val (shifted s.acc s.highCount.toNat))

/-! Invariants and bounds. -/

/-- The invariant holds after RESET, whatever the host's input. Its clause that the Frame's list is canonical is the model's
own (log entry 10). -/
def Obligations.ResetMeetsTheInvariant : Prop :=
  Inv Config.params State.reset ∧ ∀ ws n, Inv Config.params { State.reset with stimulus := ws, freeWords := n }

/-- R28, R29: every step, on any control word, keeps the invariant: in RUNNING the list of R28, in IDLE every register at
its reset value, in DONE a verdict and a cause; and every register in its legal range (R21). Its clause that the Frame's
list is canonical is the model's own (log entry 10). -/
def Obligations.EveryStepKeepsTheInvariant : Prop :=
  ∀ s t : State, Inv Config.params s → step s = .next t → Inv Config.params t

/-- D26, R6, R21: the same for every legal parameter set, on the block with the register widths R21 gives it, so that the
claim does not rest on this hardware's unaudited values: a step is not refused, and keeps the invariant. -/
def Obligations.EveryStepKeepsTheInvariantForAllLegalParameters : Prop :=
  ∀ (P : Params) (s : BlockOf P), P.Legal → Inv P s → ∃ t, stepOf P s = .ok t ∧ Inv P t

/-- R21: the widths of the two counters whose limits are parameters: for this hardware 16 and 8; for every legal parameter
set the smallest width that holds every legal value. This hardware's step is the parametric one at its parameters. -/
def Obligations.CounterWidthsFollowTheParameters : Prop :=
  Config.params.wdWidth = 16 ∧ Config.params.highWidth = 8 ∧
    (∀ P : Params, P.Legal →
      P.watchdogLimit < 2 ^ P.wdWidth ∧ 2 ^ (P.wdWidth - 1) ≤ P.watchdogLimit ∧
      P.pulseAbortLength < 2 ^ P.highWidth ∧ 2 ^ (P.highWidth - 1) ≤ P.pulseAbortLength) ∧
    (∀ s : State, step s = .next (s.stepFor Config.params))

/-- The Frame's list stays in its canonical form, in any state at all, so that equal Frames are equal data. The form is the
model's own representation (log entry 10): the spec gives five bytes (R50) and no index outside them (R53), and this says
that the model's list never holds another. -/
def Obligations.EveryStepKeepsTheFrameCanonical : Prop :=
  ∀ s t : State, s.frame.wf → step s = .next t → t.frame.wf

/-- R129: an attempt that gets a sample in every cycle ends within the rest of its budget of 50000 samples; a line held HIGH
for 200 consecutive samples ends it, from an open run of none at the last of them; and with no samples at all it stays
RUNNING. -/
def Obligations.AttemptEndsWithinTheWatchdogBudget : Prop :=
  ∀ s : State, s.state = .running → RunningInv Config.params s →
    (∀ ls : List Level, 50000 - s.wdCount.toNat ≤ ls.length → (s.applyAll (ls.map sampleInstr)).state = .done) ∧
    (s.applyAll (List.replicate 200 .sampleHigh)).state = .done ∧
    (s.highCount = 0 → s.wdCount.toNat + 200 ≤ 50000 →
      (s.applyAll (List.replicate 199 .sampleHigh)).state = .running ∧
      (s.applyAll (List.replicate 200 .sampleHigh)).endCause = .abort) ∧
    (∀ n : Nat, s.applyAll (List.replicate n .nop) = s)

/-! The host's contract. -/

/-- R6: an illegal parameter set is refused, by the check and by the block's step; this hardware's is legal; and three
constants are fixed. -/
def Obligations.IllegalParametersAreRefused : Prop :=
  (∀ P : Params, P.check = .ok () ↔
      1 ≤ P.watchdogLimit ∧ 1 ≤ P.pulseAbortLength ∧ 1 ≤ P.bit1Min ∧ P.bit1Min ≤ P.unclassMin) ∧
    (∀ (P : Params) (s : BlockOf P), ¬ P.Legal → ∃ e, stepOf P s = .error e) ∧
    Config.params.check = .ok () ∧
    Config.handshakePulses = 2 ∧ Config.dataBits = 40 ∧ Config.frameBytes = 5

/-- R182: GPIO initialisation is checked first, then the pin; either failure ends the acquisition at once, with no
handshake, and the block is not used. -/
def Obligations.FatalChecksEndTheAcquisitionAtOnce : Prop :=
  ∀ (pinOk : Bool) (lines : List (List Level)) (s : State),
    acquire false pinOk lines s = { outcome := some (.failure .gpioInitFailed), actions := [], block := s } ∧
    acquire true false lines s = { outcome := some (.failure .invalidPin), actions := [], block := s }

/-- R187: an acquisition that ends in NoData made exactly three handshakes, with two pauses between them; one that succeeds
made one pause fewer than handshakes, and the reading is the block's own. With attempts left, a VALID attempt is the last: the
acquisition is that attempt and its reading; one that ended INVALID or TIMEOUT is followed by the pause, if another attempt is
left, and the rest. The host is the model's function beside the step (log entry 7). -/
def Obligations.RetriesFollowTheContract : Prop :=
  ∀ (lines : List (List Level)) (s : State),
    ((acquire true true lines s).outcome = some (.failure .noData) →
      handshakes (acquire true true lines s).actions = 3 ∧ pauses (acquire true true lines s).actions = 2) ∧
    (∀ r, (acquire true true lines s).outcome = some (.success r) →
      (acquire true true lines s).block.validReading = some r ∧
      handshakes (acquire true true lines s).actions ≤ 3 ∧
      handshakes (acquire true true lines s).actions = pauses (acquire true true lines s).actions + 1) ∧
    (∀ n r, (attempt (lines.headD []) s).2.validReading = some r →
      attempts (n + 1) lines s = { outcome := some (.success r), actions := (attempt (lines.headD []) s).1,
                                   block := (attempt (lines.headD []) s).2 }) ∧
    (∀ n, (attempt (lines.headD []) s).2.state = .done → (attempt (lines.headD []) s).2.result ≠ .valid →
      (attempts (n + 1) lines s).outcome = (attempts n lines.tail (attempt (lines.headD []) s).2).outcome ∧
      (attempts (n + 1) lines s).actions =
        (attempt (lines.headD []) s).1 ++ (if n = 0 then [] else [.sleepMillis 2000]) ++
          (attempts n lines.tail (attempt (lines.headD []) s).2).actions)

/-- R181, R231, R232: the host asserts `rst` once, before its first attempt, and never again; so nothing it does or gets
depends on what the registers held at power-up, and if every line gives a sample in every cycle, every acquisition it is
asked for returns an outcome and leaves the block not RUNNING. The host is the model's function beside the step (log entry
7). -/
def Obligations.HostResetsOnceBeforeTheFirstAttempt : Prop :=
  ∀ (rs : List Request) (s : State),
    (hostRun rs s).1 = [.give .reset] ∧
    (∀ a ∈ (hostRun rs s).2, a.actions.count (.give .reset) = 0) ∧
    (∀ t : State, t.stimulus = s.stimulus → t.freeWords = s.freeWords → hostRun rs t = hostRun rs s) ∧
    ((∀ r ∈ rs, 3 ≤ r.lines.length ∧ ∀ l ∈ r.lines, 50000 ≤ l.length) →
      (hostRun rs s).2.length = rs.length ∧
      ∀ a ∈ (hostRun rs s).2, a.outcome ≠ none ∧ a.block.state ≠ .running)

/-- R184, R190: if the line gives a sample in every cycle, every acquisition from a block that is not RUNNING returns
exactly one outcome, and it is a success or NoData. The host is the model's function beside the step (log entry 7). -/
def Obligations.EveryAcquisitionReturnsAnOutcome : Prop :=
  ∀ (lines : List (List Level)) (s : State), s.state ≠ .running → 3 ≤ lines.length →
    (∀ l ∈ lines, 50000 ≤ l.length) →
    (acquire true true lines s).outcome = some (.failure .noData) ∨
      ∃ r, (acquire true true lines s).outcome = some (.success r)
end

