-- ==== Sys2Proof/Laws/State.lean ====
section
/-! SUPPORT. Beside State: one lemma per field per update, true by rfl, so that no proof unfolds a record update. -/

namespace Sys2Proof.Machine

variable {wW hW : Nat}

@[simp] theorem State.countSample_state (s : State wW hW) : (s.countSample).state = s.state := rfl
@[simp] theorem State.countSample_wdCount (s : State wW hW) : (s.countSample).wdCount = countUp s.wdCount := rfl
@[simp] theorem State.countSample_highCount (s : State wW hW) : (s.countSample).highCount = s.highCount := rfl
@[simp] theorem State.countSample_pulseIndex (s : State wW hW) : (s.countSample).pulseIndex = s.pulseIndex := rfl
@[simp] theorem State.countSample_acc (s : State wW hW) : (s.countSample).acc = s.acc := rfl
@[simp] theorem State.countSample_bits (s : State wW hW) : (s.countSample).bits = s.bits := rfl
@[simp] theorem State.countSample_frame (s : State wW hW) : (s.countSample).frame = s.frame := rfl
@[simp] theorem State.countSample_result (s : State wW hW) : (s.countSample).result = s.result := rfl
@[simp] theorem State.countSample_endCause (s : State wW hW) : (s.countSample).endCause = s.endCause := rfl
@[simp] theorem State.countSample_stimulus (s : State wW hW) : (s.countSample).stimulus = s.stimulus := rfl
@[simp] theorem State.countSample_freeWords (s : State wW hW) : (s.countSample).freeWords = s.freeWords := rfl

@[simp] theorem State.countHigh_state (s : State wW hW) : (s.countHigh).state = s.state := rfl
@[simp] theorem State.countHigh_wdCount (s : State wW hW) : (s.countHigh).wdCount = s.wdCount := rfl
@[simp] theorem State.countHigh_highCount (s : State wW hW) : (s.countHigh).highCount = countUp s.highCount := rfl
@[simp] theorem State.countHigh_pulseIndex (s : State wW hW) : (s.countHigh).pulseIndex = s.pulseIndex := rfl
@[simp] theorem State.countHigh_acc (s : State wW hW) : (s.countHigh).acc = s.acc := rfl
@[simp] theorem State.countHigh_bits (s : State wW hW) : (s.countHigh).bits = s.bits := rfl
@[simp] theorem State.countHigh_frame (s : State wW hW) : (s.countHigh).frame = s.frame := rfl
@[simp] theorem State.countHigh_result (s : State wW hW) : (s.countHigh).result = s.result := rfl
@[simp] theorem State.countHigh_endCause (s : State wW hW) : (s.countHigh).endCause = s.endCause := rfl
@[simp] theorem State.countHigh_stimulus (s : State wW hW) : (s.countHigh).stimulus = s.stimulus := rfl
@[simp] theorem State.countHigh_freeWords (s : State wW hW) : (s.countHigh).freeWords = s.freeWords := rfl

@[simp] theorem State.clearRun_state (s : State wW hW) : (s.clearRun).state = s.state := rfl
@[simp] theorem State.clearRun_wdCount (s : State wW hW) : (s.clearRun).wdCount = s.wdCount := rfl
@[simp] theorem State.clearRun_highCount (s : State wW hW) : (s.clearRun).highCount = 0 := rfl
@[simp] theorem State.clearRun_pulseIndex (s : State wW hW) : (s.clearRun).pulseIndex = s.pulseIndex := rfl
@[simp] theorem State.clearRun_acc (s : State wW hW) : (s.clearRun).acc = s.acc := rfl
@[simp] theorem State.clearRun_bits (s : State wW hW) : (s.clearRun).bits = s.bits := rfl
@[simp] theorem State.clearRun_frame (s : State wW hW) : (s.clearRun).frame = s.frame := rfl
@[simp] theorem State.clearRun_result (s : State wW hW) : (s.clearRun).result = s.result := rfl
@[simp] theorem State.clearRun_endCause (s : State wW hW) : (s.clearRun).endCause = s.endCause := rfl
@[simp] theorem State.clearRun_stimulus (s : State wW hW) : (s.clearRun).stimulus = s.stimulus := rfl
@[simp] theorem State.clearRun_freeWords (s : State wW hW) : (s.clearRun).freeWords = s.freeWords := rfl

@[simp] theorem State.countPulse_state (s : State wW hW) : (s.countPulse).state = s.state := rfl
@[simp] theorem State.countPulse_wdCount (s : State wW hW) : (s.countPulse).wdCount = s.wdCount := rfl
@[simp] theorem State.countPulse_highCount (s : State wW hW) : (s.countPulse).highCount = s.highCount := rfl
@[simp] theorem State.countPulse_pulseIndex (s : State wW hW) : (s.countPulse).pulseIndex = countUp s.pulseIndex := rfl
@[simp] theorem State.countPulse_acc (s : State wW hW) : (s.countPulse).acc = s.acc := rfl
@[simp] theorem State.countPulse_bits (s : State wW hW) : (s.countPulse).bits = s.bits := rfl
@[simp] theorem State.countPulse_frame (s : State wW hW) : (s.countPulse).frame = s.frame := rfl
@[simp] theorem State.countPulse_result (s : State wW hW) : (s.countPulse).result = s.result := rfl
@[simp] theorem State.countPulse_endCause (s : State wW hW) : (s.countPulse).endCause = s.endCause := rfl
@[simp] theorem State.countPulse_stimulus (s : State wW hW) : (s.countPulse).stimulus = s.stimulus := rfl
@[simp] theorem State.countPulse_freeWords (s : State wW hW) : (s.countPulse).freeWords = s.freeWords := rfl

@[simp] theorem State.clearAccumulator_state (s : State wW hW) : (s.clearAccumulator).state = s.state := rfl
@[simp] theorem State.clearAccumulator_wdCount (s : State wW hW) : (s.clearAccumulator).wdCount = s.wdCount := rfl
@[simp] theorem State.clearAccumulator_highCount (s : State wW hW) : (s.clearAccumulator).highCount = s.highCount := rfl
@[simp] theorem State.clearAccumulator_pulseIndex (s : State wW hW) : (s.clearAccumulator).pulseIndex = s.pulseIndex := rfl
@[simp] theorem State.clearAccumulator_acc (s : State wW hW) : (s.clearAccumulator).acc = 0 := rfl
@[simp] theorem State.clearAccumulator_bits (s : State wW hW) : (s.clearAccumulator).bits = 0 := rfl
@[simp] theorem State.clearAccumulator_frame (s : State wW hW) : (s.clearAccumulator).frame = s.frame := rfl
@[simp] theorem State.clearAccumulator_result (s : State wW hW) : (s.clearAccumulator).result = s.result := rfl
@[simp] theorem State.clearAccumulator_endCause (s : State wW hW) : (s.clearAccumulator).endCause = s.endCause := rfl
@[simp] theorem State.clearAccumulator_stimulus (s : State wW hW) : (s.clearAccumulator).stimulus = s.stimulus := rfl
@[simp] theorem State.clearAccumulator_freeWords (s : State wW hW) : (s.clearAccumulator).freeWords = s.freeWords := rfl

@[simp] theorem State.shiftIn_state (s : State wW hW) (c : Bool) : (s.shiftIn c).state = s.state := rfl
@[simp] theorem State.shiftIn_wdCount (s : State wW hW) (c : Bool) : (s.shiftIn c).wdCount = s.wdCount := rfl
@[simp] theorem State.shiftIn_highCount (s : State wW hW) (c : Bool) : (s.shiftIn c).highCount = s.highCount := rfl
@[simp] theorem State.shiftIn_pulseIndex (s : State wW hW) (c : Bool) : (s.shiftIn c).pulseIndex = s.pulseIndex := rfl
@[simp] theorem State.shiftIn_acc (s : State wW hW) (c : Bool) : (s.shiftIn c).acc = (s.acc <<< 1) ||| (BitVec.ofBool c).setWidth 8 := rfl
@[simp] theorem State.shiftIn_bits (s : State wW hW) (c : Bool) : (s.shiftIn c).bits = countUp s.bits := rfl
@[simp] theorem State.shiftIn_frame (s : State wW hW) (c : Bool) : (s.shiftIn c).frame = s.frame := rfl
@[simp] theorem State.shiftIn_result (s : State wW hW) (c : Bool) : (s.shiftIn c).result = s.result := rfl
@[simp] theorem State.shiftIn_endCause (s : State wW hW) (c : Bool) : (s.shiftIn c).endCause = s.endCause := rfl
@[simp] theorem State.shiftIn_stimulus (s : State wW hW) (c : Bool) : (s.shiftIn c).stimulus = s.stimulus := rfl
@[simp] theorem State.shiftIn_freeWords (s : State wW hW) (c : Bool) : (s.shiftIn c).freeWords = s.freeWords := rfl

@[simp] theorem State.storeFrame_state (s : State wW hW) (k : Fin 5) (v : Byte) : (s.storeFrame k v).state = s.state := rfl
@[simp] theorem State.storeFrame_wdCount (s : State wW hW) (k : Fin 5) (v : Byte) : (s.storeFrame k v).wdCount = s.wdCount := rfl
@[simp] theorem State.storeFrame_highCount (s : State wW hW) (k : Fin 5) (v : Byte) : (s.storeFrame k v).highCount = s.highCount := rfl
@[simp] theorem State.storeFrame_pulseIndex (s : State wW hW) (k : Fin 5) (v : Byte) : (s.storeFrame k v).pulseIndex = s.pulseIndex := rfl
@[simp] theorem State.storeFrame_acc (s : State wW hW) (k : Fin 5) (v : Byte) : (s.storeFrame k v).acc = s.acc := rfl
@[simp] theorem State.storeFrame_bits (s : State wW hW) (k : Fin 5) (v : Byte) : (s.storeFrame k v).bits = s.bits := rfl
@[simp] theorem State.storeFrame_frame (s : State wW hW) (k : Fin 5) (v : Byte) : (s.storeFrame k v).frame = s.frame.write k.val v := rfl
@[simp] theorem State.storeFrame_result (s : State wW hW) (k : Fin 5) (v : Byte) : (s.storeFrame k v).result = s.result := rfl
@[simp] theorem State.storeFrame_endCause (s : State wW hW) (k : Fin 5) (v : Byte) : (s.storeFrame k v).endCause = s.endCause := rfl
@[simp] theorem State.storeFrame_stimulus (s : State wW hW) (k : Fin 5) (v : Byte) : (s.storeFrame k v).stimulus = s.stimulus := rfl
@[simp] theorem State.storeFrame_freeWords (s : State wW hW) (k : Fin 5) (v : Byte) : (s.storeFrame k v).freeWords = s.freeWords := rfl

@[simp] theorem State.finish_state (s : State wW hW) (e : EndCause) : (s.finish e).state = .done := rfl
@[simp] theorem State.finish_wdCount (s : State wW hW) (e : EndCause) : (s.finish e).wdCount = s.wdCount := rfl
@[simp] theorem State.finish_highCount (s : State wW hW) (e : EndCause) : (s.finish e).highCount = s.highCount := rfl
@[simp] theorem State.finish_pulseIndex (s : State wW hW) (e : EndCause) : (s.finish e).pulseIndex = s.pulseIndex := rfl
@[simp] theorem State.finish_acc (s : State wW hW) (e : EndCause) : (s.finish e).acc = s.acc := rfl
@[simp] theorem State.finish_bits (s : State wW hW) (e : EndCause) : (s.finish e).bits = s.bits := rfl
@[simp] theorem State.finish_frame (s : State wW hW) (e : EndCause) : (s.finish e).frame = s.frame := rfl
@[simp] theorem State.finish_result (s : State wW hW) (e : EndCause) : (s.finish e).result = s.verdict e := rfl
@[simp] theorem State.finish_endCause (s : State wW hW) (e : EndCause) : (s.finish e).endCause = e := rfl
@[simp] theorem State.finish_stimulus (s : State wW hW) (e : EndCause) : (s.finish e).stimulus = s.stimulus := rfl
@[simp] theorem State.finish_freeWords (s : State wW hW) (e : EndCause) : (s.finish e).freeWords = s.freeWords := rfl

@[simp] theorem State.clearRegisters_state (s : State wW hW) (r : RunState) : (s.clearRegisters r).state = r := rfl
@[simp] theorem State.clearRegisters_wdCount (s : State wW hW) (r : RunState) : (s.clearRegisters r).wdCount = 0 := rfl
@[simp] theorem State.clearRegisters_highCount (s : State wW hW) (r : RunState) : (s.clearRegisters r).highCount = 0 := rfl
@[simp] theorem State.clearRegisters_pulseIndex (s : State wW hW) (r : RunState) : (s.clearRegisters r).pulseIndex = 0 := rfl
@[simp] theorem State.clearRegisters_acc (s : State wW hW) (r : RunState) : (s.clearRegisters r).acc = 0 := rfl
@[simp] theorem State.clearRegisters_bits (s : State wW hW) (r : RunState) : (s.clearRegisters r).bits = 0 := rfl
@[simp] theorem State.clearRegisters_frame (s : State wW hW) (r : RunState) : (s.clearRegisters r).frame = [] := rfl
@[simp] theorem State.clearRegisters_result (s : State wW hW) (r : RunState) : (s.clearRegisters r).result = .none := rfl
@[simp] theorem State.clearRegisters_endCause (s : State wW hW) (r : RunState) : (s.clearRegisters r).endCause = .none := rfl
@[simp] theorem State.clearRegisters_stimulus (s : State wW hW) (r : RunState) : (s.clearRegisters r).stimulus = s.stimulus := rfl
@[simp] theorem State.clearRegisters_freeWords (s : State wW hW) (r : RunState) : (s.clearRegisters r).freeWords = s.freeWords := rfl

end Sys2Proof.Machine
end

