-- ==== Sys2Proof/Laws/Memory.lean ====
section
/-! SUPPORT. The Frame's laws: a read after a write, the canonical form kept by every operation, and that equal reads are
equal Frames. -/

namespace Sys2Proof.Machine

@[simp] theorem Memory.read_nil (a : Nat) : Memory.read [] a = 0 := rfl

theorem Memory.read_erase_same (m : Memory) (a : Nat) : (Memory.erase m a).read a = 0 := by
  induction m with
  | nil => rfl
  | cons c m ih => by_cases h : c.1 = a <;> simp [Memory.erase, Memory.read, h, ih]

theorem Memory.read_erase_other (m : Memory) {a x : Nat} (hx : x ≠ a) : (Memory.erase m a).read x = m.read x := by
  induction m with
  | nil => rfl
  | cons c m ih =>
    by_cases h : c.1 = a
    · simp [Memory.erase, Memory.read, h, ih, Ne.symm hx]
    · simp [Memory.erase, Memory.read, h, ih]

theorem Memory.read_insert_other (m : Memory) {a x : Nat} (b : Byte) (hx : x ≠ a) :
    (Memory.insert m a b).read x = m.read x := by
  induction m with
  | nil => simp [Memory.insert, Memory.read, Ne.symm hx]
  | cons c m ih =>
    by_cases h : a < c.1 <;> simp [Memory.insert, Memory.read, h, ih, Ne.symm hx]

theorem Memory.read_insert_erase (m : Memory) (a : Nat) (b : Byte) :
    (Memory.insert (Memory.erase m a) a b).read a = b := by
  induction m with
  | nil => simp [Memory.erase, Memory.insert, Memory.read]
  | cons c m ih =>
    by_cases h : c.1 = a
    · simpa [Memory.erase, h] using ih
    · by_cases h' : a < c.1 <;> simp [Memory.erase, Memory.insert, Memory.read, h, h', ih]

@[simp] theorem Memory.read_write_same (m : Memory) (a : Nat) (b : Byte) : (m.write a b).read a = b := by
  unfold Memory.write
  split
  · next h => rw [Memory.read_erase_same, h]; rfl
  · exact Memory.read_insert_erase m a b

theorem Memory.read_write_other (m : Memory) {a x : Nat} (b : Byte) (hx : x ≠ a) :
    (m.write a b).read x = m.read x := by
  unfold Memory.write
  split
  · exact Memory.read_erase_other m hx
  · rw [Memory.read_insert_other _ b hx, Memory.read_erase_other m hx]

theorem Memory.mem_erase {m : Memory} {a : Nat} {c : Host.Cell} (h : c ∈ Memory.erase m a) : c ∈ m ∧ c.1 ≠ a := by
  induction m with
  | nil => simp [Memory.erase] at h
  | cons d m ih =>
    by_cases hd : d.1 = a
    · simp only [Memory.erase, hd, if_true] at h
      exact ⟨List.mem_cons_of_mem _ (ih h).1, (ih h).2⟩
    · simp only [Memory.erase, hd, if_false, List.mem_cons] at h
      rcases h with rfl | h
      · exact ⟨List.mem_cons_self, hd⟩
      · exact ⟨List.mem_cons_of_mem _ (ih h).1, (ih h).2⟩

theorem Memory.mem_insert {m : Memory} {a : Nat} {b : Byte} {c : Host.Cell} :
    c ∈ Memory.insert m a b ↔ c = (a, b) ∨ c ∈ m := by
  induction m with
  | nil => simp [Memory.insert]
  | cons d m ih =>
    by_cases h : a < d.1
    · simp [Memory.insert, h]
    · simp [Memory.insert, h, ih]; tauto

theorem Memory.wf_nil : Memory.wf [] := by simp [Memory.wf]

theorem Memory.wf_erase {m : Memory} (h : m.wf) (a : Nat) : Memory.wf (Memory.erase m a) := by
  refine ⟨?_, fun c hc => h.2 c (Memory.mem_erase hc).1⟩
  have h1 := h.1
  clear h
  induction m with
  | nil => simp [Memory.erase]
  | cons d m ih =>
    rw [List.pairwise_cons] at h1
    by_cases hd : d.1 = a
    · simpa [Memory.erase, hd] using ih h1.2
    · simp only [Memory.erase, hd, if_false, List.pairwise_cons]
      exact ⟨fun c hc => h1.1 c (Memory.mem_erase hc).1, ih h1.2⟩

theorem Memory.wf_insert {m : Memory} (h : m.wf) {a : Nat} {b : Byte} (ha : a < 5) (hb : b ≠ 0)
    (hn : ∀ c ∈ m, c.1 ≠ a) : Memory.wf (Memory.insert m a b) := by
  refine ⟨?_, fun c hc => ?_⟩
  · have h1 := h.1
    clear h
    induction m with
    | nil => simp [Memory.insert]
    | cons d m ih =>
      rw [List.pairwise_cons] at h1
      by_cases hd : a < d.1
      · simp only [Memory.insert, hd, if_true, List.pairwise_cons, List.mem_cons]
        refine ⟨?_, h1.1, h1.2⟩
        rintro c (rfl | hc)
        · exact hd
        · exact hd.trans (h1.1 c hc)
      · simp only [Memory.insert, hd, if_false, List.pairwise_cons]
        refine ⟨fun c hc => ?_, ih (fun c hc => hn c (List.mem_cons_of_mem _ hc)) h1.2⟩
        rcases Memory.mem_insert.1 hc with rfl | hc
        · exact lt_of_le_of_ne (not_lt.1 hd) (hn d List.mem_cons_self)
        · exact h1.1 c hc
  · rcases Memory.mem_insert.1 hc with rfl | hc
    · exact ⟨ha, hb⟩
    · exact h.2 c hc

/-- A write to one of the five bytes keeps the canonical form. -/
theorem Memory.wf_write {m : Memory} (h : m.wf) {a : Nat} (b : Byte) (ha : a < 5) : Memory.wf (m.write a b) := by
  unfold Memory.write
  split
  · exact Memory.wf_erase h a
  · next hb => exact Memory.wf_insert (Memory.wf_erase h a) ha hb (fun c hc => (Memory.mem_erase hc).2)

theorem Memory.wf_ofBytes (b0 b1 b2 b3 b4 : Byte) : (Memory.ofBytes b0 b1 b2 b3 b4).wf :=
  Memory.wf_write (Memory.wf_write (Memory.wf_write (Memory.wf_write (Memory.wf_write Memory.wf_nil _ (by decide)) _
    (by decide)) _ (by decide)) _ (by decide)) _ (by decide)

theorem Memory.read_eq_zero_of_lt {m : Memory} {a : Nat} (h : ∀ c ∈ m, a < c.1) : m.read a = 0 := by
  induction m with
  | nil => rfl
  | cons c m ih =>
    have := h c List.mem_cons_self
    simp only [Memory.read, if_neg (by omega : ¬ c.1 = a)]
    exact ih fun d hd => h d (List.mem_cons_of_mem _ hd)

/-- Two canonical Frames that read the same everywhere are the same list. -/
theorem Memory.ext_of_wf {m n : Memory} (hm : m.wf) (hn : n.wf) (h : ∀ a, m.read a = n.read a) : m = n := by
  induction m generalizing n with
  | nil =>
    cases n with
    | nil => rfl
    | cons d n =>
      exact absurd (by simpa [Memory.read] using (h d.1).symm) (hn.2 d List.mem_cons_self).2
  | cons c m ih =>
    obtain ⟨hm1, hm2⟩ := hm
    rw [List.pairwise_cons] at hm1
    cases n with
    | nil => exact absurd (by simpa [Memory.read] using h c.1) (hm2 c List.mem_cons_self).2
    | cons d n =>
      obtain ⟨hn1, hn2⟩ := hn
      rw [List.pairwise_cons] at hn1
      have hc := hm2 c List.mem_cons_self
      have hd := hn2 d List.mem_cons_self
      have key : c.1 = d.1 := by
        rcases Nat.lt_trichotomy c.1 d.1 with hlt | heq | hgt
        · have h2 := h c.1
          rw [Memory.read_eq_zero_of_lt (m := d :: n) (by
            rintro x (_ | ⟨_, hx⟩)
            · exact hlt
            · exact hlt.trans (hn1.1 x hx))] at h2
          exact absurd (by simpa [Memory.read, Memory.unlisted] using h2) hc.2
        · exact heq
        · have h2 := h d.1
          rw [Memory.read_eq_zero_of_lt (m := c :: m) (by
            rintro x (_ | ⟨_, hx⟩)
            · exact hgt
            · exact hgt.trans (hm1.1 x hx))] at h2
          exact absurd (by simpa [Memory.read, Memory.unlisted] using h2.symm) hd.2
      have hv : c.2 = d.2 := by have h2 := h c.1; simpa [Memory.read, key] using h2
      have hcd : c = d := Prod.ext key hv
      subst hcd
      refine congrArg (List.cons c) (ih ⟨hm1.2, fun x hx => hm2 x (List.mem_cons_of_mem _ hx)⟩
        ⟨hn1.2, fun x hx => hn2 x (List.mem_cons_of_mem _ hx)⟩ fun a => ?_)
      by_cases ha : c.1 = a
      · subst ha
        rw [Memory.read_eq_zero_of_lt hm1.1, Memory.read_eq_zero_of_lt hn1.1]
      · simpa [Memory.read, ha] using h a

/-- An index outside the five bytes reads as unlisted (R53, R63). -/
theorem Memory.read_outside {m : Memory} (h : m.wf) {a : Nat} (ha : 5 ≤ a) : m.read a = 0 := by
  obtain ⟨-, h2⟩ := h
  induction m with
  | nil => rfl
  | cons c m ih =>
    have : c.1 < 5 := (h2 c List.mem_cons_self).1
    simp only [Memory.read, if_neg (by omega : ¬ c.1 = a)]
    exact ih fun x hx => h2 x (List.mem_cons_of_mem _ hx)

end Sys2Proof.Machine
end

