-- ==== Sys2Proof/Laws/Ops.lean ====
section
/-! SUPPORT. One lemma per shared operation that says everything it can do, to be cited instead of unfolding it. -/

namespace Sys2Proof.Machine

variable {wW hW : Nat}

open Sys2Proof.Safety

/-- A counter below the largest value of its width counts exactly one up. -/
theorem countUp_toNat {w : Nat} {v : BitVec w} (h : v.toNat + 1 < 2 ^ w) : (countUp v).toNat = v.toNat + 1 := by
  simp [countUp, h, BitVec.toNat_add, Nat.mod_eq_of_lt h,
    Nat.mod_eq_of_lt (show 1 < 2 ^ w by omega)]

theorem countUp_eq {w : Nat} {v : BitVec w} (h : v.toNat + 1 < 2 ^ w) : countUp v = v + 1 := by
  simp [countUp, h]

/-- What `exec` answers, as the plain function `State.apply`. -/
theorem exec_eq (i : Instr) (s : State) : exec i s = .next (s.apply i) := by
  cases i <;> rfl

theorem exec_next_iff {i : Instr} {s t : State} : exec i s = .next t ↔ s.apply i = t := by
  rw [exec_eq]; exact ⟨fun h => Host.Outcome.next.inj h, fun h => congrArg _ h⟩

theorem step_eq (s : State) : step s = .next (s.takeWord.apply (decodeWord s.controlWord)) := exec_eq _ _

theorem State.takeWord_cons {s : State wW hW} {w : ControlWord} {ws : List ControlWord} (h : s.stimulus = w :: ws) :
    s.takeWord = { s with stimulus := ws } := by simp [State.takeWord, h]

theorem State.takeWord_nil {s : State wW hW} (h : s.stimulus = []) :
    s.takeWord = { s with freeWords := s.freeWords + 1 } := by simp [State.takeWord, h]

theorem State.controlWord_cons {s : State wW hW} {w : ControlWord} {ws : List ControlWord} (h : s.stimulus = w :: ws) :
    s.controlWord = w := by simp [State.controlWord, h]

/-- This hardware's step is the parametric one at its parameters. -/
theorem step_eq_stepFor (s : State) : step s = .next (s.stepFor Config.params) := step_eq s

/-- Every value up to the limit fits the width R21 gives its counter. -/
theorem lt_two_pow_counterWidth (n : Nat) : n < 2 ^ counterWidth n :=
  Nat.lt_of_succ_le (Nat.le_pow_clog (by decide) (n + 1))

/-- No smaller width does. -/
theorem two_pow_counterWidth_le {n : Nat} (h : 1 ≤ n) : 2 ^ (counterWidth n - 1) ≤ n :=
  Nat.le_of_lt_succ (Nat.pow_pred_clog_lt_self (by decide) (by omega))

/-- The widths of this hardware's two counters (R21). -/
theorem counterWidth_params : Config.params.wdWidth = 16 ∧ Config.params.highWidth = 8 := by
  constructor <;> norm_num [counterWidth, Config.params, Nat.clog]

/-- `stepOf` steps exactly for the legal parameter sets (R6). -/
theorem stepOf_eq {P : Params} (h : P.check = .ok ()) (s : BlockOf P) : stepOf P s = .ok (s.stepFor P) := by
  simp [stepOf, h]

/-- `byteStore` writes one byte, or none where there is no index (R147, R53). -/
theorem State.byteStore_cases (s : State wW hW) :
    (byteIndex s.pulseIndex = none ∧ s.byteStore = s.clearAccumulator) ∨
    (∃ k, byteIndex s.pulseIndex = some k ∧ s.byteStore = (s.storeFrame k s.acc).clearAccumulator) := by
  unfold State.byteStore
  cases h : byteIndex s.pulseIndex with
  | none => exact .inl ⟨rfl, rfl⟩
  | some k => exact .inr ⟨k, rfl, rfl⟩

/-- `accumulate` shifts a bit in, and stores the byte exactly where the count comes to 8. -/
theorem State.accumulate_cases (s : State wW hW) (c : Bool) :
    (countUp s.bits = 8 ∧ s.accumulate c = (s.shiftIn c).byteStore) ∨
    (countUp s.bits ≠ 8 ∧ s.accumulate c = s.shiftIn c) := by
  by_cases h : countUp s.bits = 8
  · exact .inl ⟨h, if_pos h⟩
  · exact .inr ⟨h, if_neg h⟩

/-- Everything a counted pulse can do (R140). -/
theorem State.countedPulse_cases (P : Params) (d : Nat) (s : State wW hW) :
    (s.pulseIndex.toNat < 2 ∧ s.countedPulse P d = (s, .none)) ∨
    (s.pulseIndex.toNat = 2 ∧ s.countedPulse P d = (s.clearAccumulator, .none)) ∨
    (42 < s.pulseIndex.toNat ∧ s.countedPulse P d = (s, .overflow)) ∨
    (2 < s.pulseIndex.toNat ∧ s.pulseIndex.toNat ≤ 42 ∧
      ((classify P d = .unclassifiable ∧ s.countedPulse P d = (s, .unclassifiable)) ∨
       (classify P d = .bit0 ∧ s.countedPulse P d = (s.accumulate false, .none)) ∨
       (classify P d = .bit1 ∧ s.countedPulse P d = (s.accumulate true, .none)))) := by
  unfold State.countedPulse State.dataPulse
  simp only [Config.handshakePulses, Config.dataBits]
  rcases Nat.lt_trichotomy s.pulseIndex.toNat 2 with h | h | h
  · exact .inl ⟨h, by simp [h]⟩
  · exact .inr (.inl ⟨h, by simp [h]⟩)
  · by_cases h' : 42 < s.pulseIndex.toNat
    · exact .inr (.inr (.inl ⟨h', by simp [h', Nat.lt_asymm h, Nat.ne_of_gt h]⟩))
    · refine .inr (.inr (.inr ⟨h, Nat.le_of_not_lt h', ?_⟩))
      cases hc : classify P d <;> simp [h', Nat.lt_asymm h, Nat.ne_of_gt h]

/-- The watchdog test ends the attempt or changes nothing (R126). -/
theorem State.watchdogTest_cases (P : Params) (s : State wW hW) :
    (s.wdCount.toNat = P.watchdogLimit ∧ s.watchdogTest P = s.finish .watchdog) ∨
    (s.wdCount.toNat ≠ P.watchdogLimit ∧ s.watchdogTest P = s) := by
  unfold State.watchdogTest
  by_cases h : s.wdCount.toNat = P.watchdogLimit <;> simp [h]

/-- Everything the HIGH branch of a sample can do (R121). -/
theorem State.sampleHigh_cases (P : Params) (s : State wW hW) :
    ((countUp s.highCount).toNat = P.pulseAbortLength ∧ s.sampleHigh P = s.countHigh.finish .abort) ∨
    ((countUp s.highCount).toNat ≠ P.pulseAbortLength ∧ s.sampleHigh P = s.countHigh.watchdogTest P) := by
  unfold State.sampleHigh
  by_cases h : (countUp s.highCount).toNat = P.pulseAbortLength <;> simp [h]

/-- Everything the LOW branch of a sample can do (R122): no run, a pulse that ends the attempt, or a pulse that does not. -/
theorem State.sampleLow_cases (P : Params) (s : State wW hW) :
    (s.highCount.toNat = 0 ∧ s.sampleLow P = s.watchdogTest P) ∨
    (s.highCount.toNat ≠ 0 ∧
      (((s.clearRun.pulse P s.highCount.toNat).2 = .none ∧
          s.sampleLow P = (s.clearRun.pulse P s.highCount.toNat).1.watchdogTest P) ∨
       ((s.clearRun.pulse P s.highCount.toNat).2 ≠ .none ∧
          s.sampleLow P =
            (s.clearRun.pulse P s.highCount.toNat).1.finish (s.clearRun.pulse P s.highCount.toNat).2))) := by
  unfold State.sampleLow State.pulseDuration
  by_cases h : s.highCount.toNat = 0
  · exact .inl ⟨h, by simp [h]⟩
  · refine .inr ⟨h, ?_⟩
    simp only [h, if_false, State.afterPulse]
    by_cases he : (s.clearRun.pulse P s.highCount.toNat).2 = .none
    · exact .inl ⟨he, by simp [he]⟩
    · exact .inr ⟨he, by simp [he]⟩

/-- A sample word in RUNNING is `sample`, and elsewhere nothing (R100, R106). -/
theorem State.sampleWord_cases (P : Params) (l : Level) (s : State wW hW) :
    (s.state = .running ∧ s.sampleWord P l = s.sample P l) ∨ (s.state ≠ .running ∧ s.sampleWord P l = s) := by
  unfold State.sampleWord
  by_cases h : s.state = .running <;> simp [h]

/-- START is ignored in RUNNING and clears everything elsewhere (R103, R104). -/
theorem State.startWord_cases (s : State wW hW) :
    (s.state = .running ∧ s.startWord = s) ∨ (s.state ≠ .running ∧ s.startWord = s.clearRegisters .running) := by
  unfold State.startWord
  by_cases h : s.state = .running <;> simp [h]

/-- The byte a store goes to, for the counts a run from RESET reaches (R147). -/
theorem byteIndex_eq {p : BitVec 6} (h8 : 8 ≤ p.toNat) (h48 : p.toNat < 48) :
    byteIndex p = some ⟨p.toNat / 8 - 1, by omega⟩ := by
  unfold byteIndex
  rw [if_neg (by omega), dif_pos (by omega)]

theorem State.applyAll_append (s : State) (is js : List Instr) :
    s.applyAll (is ++ js) = (s.applyAll is).applyAll js := by
  induction is generalizing s with
  | nil => rfl
  | cons i is ih => exact ih _

end Sys2Proof.Machine
end

