-- ==== Sys2Proof/Laws/Input.lean ====
section
/-! SUPPORT. The host's input is no register: every operation leaves it alone and does not read it. -/

namespace Sys2Proof.Machine

variable {wW hW : Nat}

/-- `s` with another host input. -/
def State.withInput (s : State wW hW) (ws : List ControlWord) (n : Nat) : State wW hW := { s with stimulus := ws, freeWords := n }

theorem State.withInput_self (s : State wW hW) : s.withInput s.stimulus s.freeWords = s := rfl

theorem State.finish_withInput (s : State wW hW) (e : EndCause) (ws : List ControlWord) (n : Nat) :
    (s.withInput ws n).finish e = (s.finish e).withInput ws n := rfl

theorem State.watchdogTest_withInput (P : Params) (s : State wW hW) (ws : List ControlWord) (n : Nat) :
    (s.withInput ws n).watchdogTest P = (s.watchdogTest P).withInput ws n := by
  unfold State.watchdogTest
  by_cases h : s.wdCount.toNat = P.watchdogLimit
  · rw [if_pos h, if_pos (show (s.withInput ws n).wdCount.toNat = _ from h)]; rfl
  · rw [if_neg h, if_neg (show ¬ (s.withInput ws n).wdCount.toNat = _ from h)]

theorem State.byteStore_withInput (s : State wW hW) (ws : List ControlWord) (n : Nat) :
    (s.withInput ws n).byteStore = s.byteStore.withInput ws n := by
  unfold State.byteStore
  show (match byteIndex s.pulseIndex with | some _ => _ | none => _) = _
  cases byteIndex s.pulseIndex <;> rfl

theorem State.accumulate_withInput (s : State wW hW) (c : Bool) (ws : List ControlWord) (n : Nat) :
    (s.withInput ws n).accumulate c = (s.accumulate c).withInput ws n := by
  unfold State.accumulate
  by_cases h : (s.shiftIn c).bits = 8
  · rw [if_pos h, if_pos (show ((s.withInput ws n).shiftIn c).bits = 8 from h)]
    exact State.byteStore_withInput (s.shiftIn c) ws n
  · rw [if_neg h, if_neg (show ¬ ((s.withInput ws n).shiftIn c).bits = 8 from h)]; rfl

theorem State.dataPulse_withInput (P : Params) (d : Nat) (s : State wW hW) (ws : List ControlWord) (n : Nat) :
    (s.withInput ws n).dataPulse P d = ((s.dataPulse P d).1.withInput ws n, (s.dataPulse P d).2) := by
  unfold State.dataPulse
  cases classify P d <;> simp [State.accumulate_withInput]

theorem State.pulse_withInput (P : Params) (d : Nat) (s : State wW hW) (ws : List ControlWord) (n : Nat) :
    (s.withInput ws n).pulse P d = ((s.pulse P d).1.withInput ws n, (s.pulse P d).2) := by
  show ((s.countPulse).withInput ws n).countedPulse P d = _
  unfold State.pulse State.countedPulse
  show (if s.countPulse.pulseIndex.toNat < Config.handshakePulses then _
      else if s.countPulse.pulseIndex.toNat = Config.handshakePulses then _
      else if Config.handshakePulses + Config.dataBits < s.countPulse.pulseIndex.toNat then _ else _) = _
  split
  · rfl
  · split
    · rfl
    · split
      · rfl
      · exact State.dataPulse_withInput P d _ ws n

theorem State.sample_withInput (P : Params) (l : Level) (s : State wW hW) (ws : List ControlWord) (n : Nat) :
    (s.withInput ws n).sample P l = (s.sample P l).withInput ws n := by
  cases l with
  | high =>
    show ((s.countSample).withInput ws n).sampleHigh P = (s.countSample.sampleHigh P).withInput ws n
    generalize s.countSample = u
    unfold State.sampleHigh
    by_cases h : u.countHigh.highCount.toNat = P.pulseAbortLength
    · rw [if_pos h, if_pos (show (u.withInput ws n).countHigh.highCount.toNat = _ from h)]; rfl
    · rw [if_neg h, if_neg (show ¬ (u.withInput ws n).countHigh.highCount.toNat = _ from h)]
      exact State.watchdogTest_withInput P u.countHigh ws n
  | low =>
    show ((s.countSample).withInput ws n).sampleLow P = (s.countSample.sampleLow P).withInput ws n
    generalize s.countSample = u
    unfold State.sampleLow
    show (match u.pulseDuration with | none => _ | some d => _) = _
    cases u.pulseDuration with
    | none => exact State.watchdogTest_withInput P u ws n
    | some d =>
      show ((u.clearRun.withInput ws n).pulse P d).1.afterPulse P ((u.clearRun.withInput ws n).pulse P d).2 = _
      rw [State.pulse_withInput]
      unfold State.afterPulse
      by_cases h : (u.clearRun.pulse P d).2 ≠ .none
      · simp only [if_pos h]; rfl
      · simp only [if_neg h]; exact State.watchdogTest_withInput P _ ws n

theorem State.sampleWord_withInput (P : Params) (l : Level) (s : State wW hW) (ws : List ControlWord) (n : Nat) :
    (s.withInput ws n).sampleWord P l = (s.sampleWord P l).withInput ws n := by
  unfold State.sampleWord
  by_cases h : s.state = .running
  · rw [if_pos h, if_pos (show (s.withInput ws n).state = _ from h)]; exact State.sample_withInput P l s ws n
  · rw [if_neg h, if_neg (show ¬ (s.withInput ws n).state = _ from h)]

/-- An operation does not read the host's input. -/
theorem State.applyFor_withInput (P : Params) (i : Instr) (s : State wW hW) (ws : List ControlWord) (n : Nat) :
    (s.withInput ws n).applyFor P i = (s.applyFor P i).withInput ws n := by
  cases i with
  | reset => rfl
  | start =>
    show (s.withInput ws n).startWord = s.startWord.withInput ws n
    unfold State.startWord
    by_cases h : s.state = .running
    · rw [if_pos h, if_pos (show (s.withInput ws n).state = _ from h)]
    · rw [if_neg h, if_neg (show ¬ (s.withInput ws n).state = _ from h)]; rfl
  | sampleHigh => exact State.sampleWord_withInput _ _ s ws n
  | sampleLow => exact State.sampleWord_withInput _ _ s ws n
  | nop => rfl

/-- An operation leaves the host's input alone (R23: the input is no register of the block). -/
theorem State.applyFor_input (P : Params) (i : Instr) (s : State wW hW) :
    (s.applyFor P i).stimulus = s.stimulus ∧ (s.applyFor P i).freeWords = s.freeWords := by
  have h := State.applyFor_withInput P i s s.stimulus s.freeWords
  rw [State.withInput_self] at h
  rw [h]
  exact ⟨rfl, rfl⟩

/-- The same for this hardware's parameters. -/
theorem State.apply_withInput (i : Instr) (s : State) (ws : List ControlWord) (n : Nat) :
    (s.withInput ws n).apply i = (s.apply i).withInput ws n :=
  State.applyFor_withInput Config.params i s ws n

theorem State.apply_input (i : Instr) (s : State) :
    (s.apply i).stimulus = s.stimulus ∧ (s.apply i).freeWords = s.freeWords :=
  State.applyFor_input Config.params i s

end Sys2Proof.Machine
end

