-- ==== Sys2Proof/Laws/PerInstr.lean ====
section
/-! SUPPORT. The family Canonical, said per operation: its canonical word matches its own row of R71 and no other row, and
sets no don't-care bit (R80). -/

namespace Sys2Proof.Laws.Canonical

/-- The canonical word of `i` selects exactly the row of `i`, and is that row's pattern: every don't-care bit is 0. -/
def Statement (i : Instr) : Prop :=
  ∃ r ∈ opcodeRows, r.instr = i ∧ encode i = r.pattern ∧ opcodeRows.filter (fun q => q.selects (encode i)) = [r]

theorem reset : Statement .reset := ⟨⟨0b1000#4, 0b1000#4, .reset⟩, by decide⟩

theorem start : Statement .start := ⟨⟨0b1100#4, 0b0100#4, .start⟩, by decide⟩

theorem sampleHigh : Statement .sampleHigh := ⟨⟨0b1111#4, 0b0011#4, .sampleHigh⟩, by decide⟩

theorem sampleLow : Statement .sampleLow := ⟨⟨0b1111#4, 0b0010#4, .sampleLow⟩, by decide⟩

theorem nop : Statement .nop := ⟨⟨0b1110#4, 0b0000#4, .nop⟩, by decide⟩

end Sys2Proof.Laws.Canonical
end

