-- ==== Sys2Proof/Laws/Sampler.lean ====
section
/-! SUPPORT. What one sample does, said once: the pulse operation's and the sample's untouched registers, and the two sample
words in RUNNING with this hardware's parameters, to be cited instead of unfolded. -/

namespace Sys2Proof.Machine

variable {wW hW : Nat}

open Sys2Proof.Safety

/-- The classes of a duration for this hardware (R145). -/
theorem classify_params (d : Nat) :
    classify Config.params d = if d < 30 then .bit0 else if d < 85 then .bit1 else .unclassifiable := rfl

/-- `frame_complete` is 1 from 42 pulses on (R148). -/
theorem frameComplete_iff {p : BitVec 6} : frameComplete p = true ↔ 42 ≤ p.toNat := by revert p; decide

/-- The shift of R146 in exact arithmetic. -/
theorem shiftIn_acc_eq (a : BitVec 8) (d : Nat) :
    (a <<< 1) ||| (BitVec.ofBool (decide (30 ≤ d))).setWidth 8 = shifted a d := by
  unfold shifted pulseBit
  by_cases h : 30 ≤ d
  · simp only [h, decide_true, if_true]; revert a; decide
  · simp only [h, decide_false, if_false]; revert a; decide

/-- `accumulate` writes `acc`, `bits` and the Frame, and nothing else. -/
theorem State.accumulate_fields (s : State wW hW) (c : Bool) :
    ∃ a b m, s.accumulate c = { s with acc := a, bits := b, frame := m } := by
  rcases s.accumulate_cases c with ⟨_, h⟩ | ⟨_, h⟩
  · rcases (s.shiftIn c).byteStore_cases with ⟨_, h'⟩ | ⟨k, _, h'⟩
    · exact ⟨0, 0, s.frame, by rw [h, h']; rfl⟩
    · exact ⟨0, 0, _, by rw [h, h']; rfl⟩
  · exact ⟨_, _, s.frame, h⟩

/-- A counted pulse writes `acc`, `bits` and the Frame, and nothing else. -/
theorem State.countedPulse_fields (P : Params) (d : Nat) (s : State wW hW) :
    ∃ a b m, (s.countedPulse P d).1 = { s with acc := a, bits := b, frame := m } := by
  rcases s.countedPulse_cases P d with ⟨_, h⟩ | ⟨_, h⟩ | ⟨_, h⟩ | ⟨_, _, ⟨_, h⟩ | ⟨_, h⟩ | ⟨_, h⟩⟩ <;> rw [h]
  · exact ⟨s.acc, s.bits, s.frame, rfl⟩
  · exact ⟨0, 0, s.frame, rfl⟩
  · exact ⟨s.acc, s.bits, s.frame, rfl⟩
  · exact ⟨s.acc, s.bits, s.frame, rfl⟩
  · exact s.accumulate_fields false
  · exact s.accumulate_fields true

/-- The watchdog test with this hardware's limit. -/
theorem State.watchdogTest_params (u : State) : u.watchdogTest Config.params = withWatchdog u := by
  have h : (u.wdCount.toNat = Config.params.watchdogLimit) ↔ u.wdCount = 50000#16 := by
    simp [Config.params, BitVec.toNat_eq]
  unfold State.watchdogTest withWatchdog
  simp only [h]
  rfl

/-- Any sample: the registers after its level is processed, `u`, which the attempt's end either takes on to `finish` or
leaves. -/
theorem State.sample_fields (P : Params) (l : Level) (s : State wW hW) :
    ∃ u e, (s.sample P l = u ∨ (e ≠ .none ∧ s.sample P l = u.finish e)) ∧ u.state = s.state ∧ u.result = s.result ∧
      u.endCause = s.endCause ∧ u.stimulus = s.stimulus ∧ u.freeWords = s.freeWords ∧
      u.wdCount = countUp s.wdCount := by
  cases l with
  | high =>
    show ∃ u e, (s.countSample.sampleHigh P = u ∨ _) ∧ _
    rcases s.countSample.sampleHigh_cases P with ⟨_, h⟩ | ⟨_, h⟩
    · exact ⟨_, .abort, .inr ⟨by simp, h⟩, by simp⟩
    · rcases s.countSample.countHigh.watchdogTest_cases P with ⟨_, h'⟩ | ⟨_, h'⟩
      · exact ⟨_, .watchdog, .inr ⟨by simp, h.trans h'⟩, by simp⟩
      · exact ⟨_, .abort, .inl (h.trans h'), by simp⟩
  | low =>
    show ∃ u e, (s.countSample.sampleLow P = u ∨ _) ∧ _
    obtain ⟨a, b, m, k⟩ := s.countSample.clearRun.countPulse.countedPulse_fields P s.highCount.toNat
    rcases s.countSample.sampleLow_cases P with ⟨_, h⟩ | ⟨_, ⟨_, h⟩ | ⟨he, h⟩⟩
    · rcases s.countSample.watchdogTest_cases P with ⟨_, h'⟩ | ⟨_, h'⟩
      · exact ⟨_, .watchdog, .inr ⟨by simp, h.trans h'⟩, by simp⟩
      · exact ⟨_, .abort, .inl (h.trans h'), by simp⟩
    · rcases (s.countSample.clearRun.pulse P s.countSample.highCount.toNat).1.watchdogTest_cases P with
        ⟨_, h'⟩ | ⟨_, h'⟩
      · exact ⟨_, .watchdog, .inr ⟨by simp, h.trans h'⟩, by simp [State.pulse, k]⟩
      · exact ⟨_, .abort, .inl (h.trans h'), by simp [State.pulse, k]⟩
    · exact ⟨_, _, .inr ⟨he, h⟩, by simp [State.pulse, k]⟩

/-- SAMPLE_HIGH in RUNNING, with counters below the largest value of their widths (R121). -/
theorem State.apply_sampleHigh {s : State} (hr : s.state = .running) (hw : s.wdCount.toNat < 65535)
    (hh : s.highCount.toNat < 255) :
    s.apply .sampleHigh =
      (let u := { s with wdCount := s.wdCount + 1, highCount := s.highCount + 1 }
       if s.highCount + 1 = 200#8 then u.finish .abort else withWatchdog u) := by
  have e1 : countUp s.wdCount = s.wdCount + 1 := countUp_eq (by omega)
  have e2 : countUp s.highCount = s.highCount + 1 := countUp_eq (by omega)
  have h : (s.countSample.countHigh.highCount.toNat = Config.params.pulseAbortLength) ↔ s.highCount + 1 = 200#8 := by
    simp [Config.params, BitVec.toNat_eq, e2]
  simp only [State.apply, State.applyFor, State.sampleWord, hr, if_true, State.sample, State.sampleHigh, h, State.watchdogTest_params]
  simp only [State.countSample, State.countHigh, e1, e2, hr]

/-- SAMPLE_LOW in RUNNING with no open run (R130). -/
theorem State.apply_sampleLow_noRun {s : State} (hr : s.state = .running) (hw : s.wdCount.toNat < 65535)
    (hh : s.highCount = 0) : s.apply .sampleLow = withWatchdog { s with wdCount := s.wdCount + 1 } := by
  have e1 : countUp s.wdCount = s.wdCount + 1 := countUp_eq (by omega)
  simp only [State.apply, State.applyFor, State.sampleWord, hr, if_true, State.sample, State.sampleLow, State.pulseDuration,
    State.countSample_highCount, hh, State.watchdogTest_params]
  simp only [State.countSample, e1, hr, hh]
  rfl

/-- SAMPLE_LOW in RUNNING with an open run: one pulse of duration `high_count` (R122). -/
theorem State.apply_sampleLow_run {s : State} (hr : s.state = .running) (hw : s.wdCount.toNat < 65535)
    (hh : s.highCount ≠ 0) :
    s.apply .sampleLow =
      (let r := State.countedPulse Config.params s.highCount.toNat
          { s with wdCount := s.wdCount + 1, highCount := 0, pulseIndex := countUp s.pulseIndex }
       if r.2 = .none then withWatchdog r.1 else r.1.finish r.2) := by
  have e1 : countUp s.wdCount = s.wdCount + 1 := countUp_eq (by omega)
  have h0 : ¬ s.highCount.toNat = 0 := fun h => hh (BitVec.eq_of_toNat_eq h)
  simp only [State.apply, State.applyFor, State.sampleWord, hr, if_true, State.sample, State.sampleLow, State.pulseDuration,
    State.countSample_highCount, h0, if_false, State.afterPulse, State.watchdogTest_params, ite_not, State.pulse]
  simp only [State.countSample, State.clearRun, State.countPulse, e1, hr]

end Sys2Proof.Machine
end

