-- ==== Sys2Proof/Tests/Slice0.lean ====
section
/-! SUPPORT. The model's own tests: words written out from the spec's encodings, vectors of 95_test_vectors.md of one step
each, ill-formed terms the checks refuse, and for each statement with hypotheses a state that meets them. -/

open Sys2Proof Sys2Proof.Machine Sys2Proof.Safety

namespace Sys2Proof.Tests

/-- A running attempt with the given counters, accumulator and Frame. -/
def running (wd : BitVec 16) (hc : BitVec 8) (pi : BitVec 6) (acc : BitVec 8) (bits : BitVec 4) (f : Memory) : State :=
  { State.reset with state := .running, wdCount := wd, highCount := hc, pulseIndex := pi, acc := acc, bits := bits,
                     frame := f }

/-- An ended attempt: `START; LINEIDLE` (V13: 200 HIGH samples, ABORT, TIMEOUT). -/
def stuckHigh : State :=
  { State.reset with state := .done, wdCount := 200, highCount := 200, result := .timeout, endCause := .abort }

/-- What a step or an operation leaves, seen through a function of the state. -/
def seen {α : Type} (f : State → α) : Host.Outcome State Fault Refusal → Option α
  | .next s => some (f s)
  | .fault _ => none
  | .refused _ => none

/-! Words written out from R71 and R80. -/

/-- R71: `1 x x x` is RESET; the word of V2, `rst` with `start`, `tick` and `din` set. -/
theorem test_decode_reset : decodeWord 0b1000#4 = .reset ∧ decodeWord 0b1011#4 = .reset := by decide

/-- R71: `0 1 x x` is START; the word of V4, with `tick = 1` and `din = 1`. -/
theorem test_decode_start : decodeWord 0b0100#4 = .start ∧ decodeWord 0b0111#4 = .start := by decide

/-- R71: `0 0 1 1`. -/
theorem test_decode_sampleHigh : decodeWord 0b0011#4 = .sampleHigh := by decide

/-- R71: `0 0 1 0`. -/
theorem test_decode_sampleLow : decodeWord 0b0010#4 = .sampleLow := by decide

/-- R71: `0 0 0 x` is NOP; the word of V9. -/
theorem test_decode_nop : decodeWord 0b0000#4 = .nop ∧ decodeWord 0b0001#4 = .nop := by decide

/-- The opcode table's words, one per row, laid out in a byte; a fifth bit is refused. -/
theorem test_decodeTableWord :
    decodeTableWord 8 8 = some .reset ∧ decodeTableWord 8 4 = some .start ∧ decodeTableWord 8 3 = some .sampleHigh ∧
      decodeTableWord 8 2 = some .sampleLow ∧ decodeTableWord 8 0 = some .nop ∧ decodeTableWord 8 16 = none := by
  decide

/-- A word placed right after reset runs as the first operation: START begins an attempt, a sample in IDLE does nothing. -/
theorem test_withFetchWord :
    seen (fun t => t.state) (step (State.reset.withFetchWord 8 4)) = some .running ∧
      seen (fun t => (t.state, t.wdCount)) (step (State.reset.withFetchWord 8 3)) = some (.idle, 0) := by decide

/-! Ill-formed terms. -/

/-- R6: each condition, broken alone; and `BIT1_MIN = UNCLASS_MIN` is legal. -/
theorem test_params_refused :
    ({ Config.params with watchdogLimit := 0 } : Params).check = .error .watchdogLimitZero ∧
      ({ Config.params with pulseAbortLength := 0 } : Params).check = .error .pulseAbortLengthZero ∧
      ({ Config.params with bit1Min := 0 } : Params).check = .error .bit1MinZero ∧
      ({ Config.params with unclassMin := 29 } : Params).check = .error .unclassMinBelowBit1Min ∧
      ({ Config.params with unclassMin := 30 } : Params).check = .ok () := by decide

/-- R81: a count of 0 is refused, each kind by its name. -/
theorem test_stimulus_refused :
    (Stimulus.hi 0).check = .error .zeroCount ∧ (Stimulus.lo 0).check = .error .zeroCount ∧
      (Stimulus.idle 0).check = .error .zeroCount ∧ (Stimulus.pulse 0 5).check = .error .zeroDuration ∧
      (Stimulus.pulse 5 0).check = .error .zeroGap ∧ (Stimulus.pulse 1 1).check = .ok () := by decide

/-- R20, R70: a byte with a bit above the four ports, and no byte at all. -/
theorem test_bytes_refused :
    decodeBytes [0x10#8] = .error .bitsAboveThePorts ∧ decodeBytes [] = .error .noControlWord := by decide

/-- R78: the reserved codes of the status registers. -/
theorem test_reserved_codes : stateOfCode 3#2 = none ∧ causeOfCode 5#3 = none := by decide

/-! One step each; the expected values are those of 95_test_vectors.md or of the rule named. -/

/-- V2: RUNNING with a partial Frame; word 0b1011 gives the reset state. -/
theorem test_reset_wins :
    seen (fun t => t) (step { running 1018 0 10 0 0 [(0, 0x33#8)] with stimulus := [0b1011#4] }) = some State.reset := by
  decide

/-- V4: DONE, word 0b0111: RUNNING with every counter 0; the word's `din` is no sample. -/
theorem test_start_from_done :
    seen (fun t => (t.state, t.wdCount, t.highCount, t.result)) (step { stuckHigh with stimulus := [0b0111#4] }) =
      some (.running, 0, 0, .none) := by decide

/-- V5: START in RUNNING changes nothing. -/
theorem test_start_ignored :
    seen (fun t => (t.wdCount, t.pulseIndex, t.frame)) (exec .start (running 1018 0 10 0 0 [(0, 0x5A#8)])) =
      some (1018, 10, [(0, 0x5A#8)]) := by decide

/-- V10: `hc = 199`, `wd = 1000`: DONE, 200, 1001, ABORT; TIMEOUT since `pi` is not 42. -/
theorem test_sampleHigh_aborts :
    seen (fun t => (t.state, t.highCount, t.wdCount, t.endCause, t.result)) (exec .sampleHigh (running 1000 199 5 0 3 [])) =
      some (.done, 200, 1001, .abort, .timeout) := by decide

/-- V16's last sample: the watchdog during an unfinished run. -/
theorem test_sampleHigh_watchdog :
    seen (fun t => (t.state, t.highCount, t.wdCount, t.endCause, t.result)) (exec .sampleHigh (running 49999 99 0 0 0 [])) =
      some (.done, 100, 50000, .watchdog, .timeout) := by decide

/-- V12: a data pulse of 27 is BIT0; R122's example: one of 70 is BIT1. -/
theorem test_sampleLow_bits :
    seen (fun t => (t.highCount, t.pulseIndex, t.acc, t.bits)) (exec .sampleLow (running 300 27 2 0 0 [])) =
        some (0, 3, 0, 1) ∧
      seen (fun t => (t.highCount, t.pulseIndex, t.acc, t.bits)) (exec .sampleLow (running 300 70 2 0 0 [])) =
        some (0, 3, 1, 1) := by decide

/-- R147's example: `p = 26`, `acc = 0x80` stored in `frame[2]` sets `temp_neg`; here by a BIT0 of 29 after `acc = 0x40`. -/
theorem test_sampleLow_stores :
    seen (fun t => (t.frame.read 2, t.acc, t.bits, t.outputs.tempNeg)) (exec .sampleLow (running 2000 29 25 0x40 7 [])) =
      some (0x80#8, 0, 0, true) := by decide

/-- V57: the last byte stored on the 50000th sample: WATCHDOG, and the verdict sees the store: VALID. -/
theorem test_watchdog_sees_the_store :
    seen (fun t => (t.wdCount, t.endCause, t.result, t.frame.read 4))
        (exec .sampleLow (running 49999 27 41 0x13 7 [(0, 0x01#8), (1, 0x90#8), (2, 0x80#8), (3, 0x15#8)])) =
      some (50000, .watchdog, .valid, 0x26#8) := by decide

/-- V34: `d = 85` ends the attempt. -/
theorem test_unclassifiable :
    seen (fun t => (t.state, t.wdCount, t.pulseIndex, t.endCause, t.result)) (exec .sampleLow (running 315 85 2 0 0 [])) =
      some (.done, 316, 3, .unclassifiable, .invalid) := by decide

/-- V44: the 41st data pulse of a complete frame: OVERFLOW, INVALID, with `frame_complete = 1`. -/
theorem test_overflow :
    seen (fun t => (t.wdCount, t.pulseIndex, t.endCause, t.result, t.outputs.frameComplete))
        (exec .sampleLow (running 3380 70 42 0 0 [])) =
      some (3381, 43, .overflow, .invalid, true) := by decide

/-- V9: NOP. -/
theorem test_nop : seen (fun t => t.highCount) (step { running 5 12 0 0 0 [] with stimulus := [0b0001#4] }) = some 12 := by
  decide

/-- S4, V52, V53: the checksum and the sign of three frames. -/
theorem test_frames :
    checksumOk (Memory.ofBytes 0x01 0x90 0x80 0x15 0x26) = true ∧ tempNeg (Memory.ofBytes 0x01 0x90 0x80 0x15 0x26) = true ∧
      humidityX10 (Memory.ofBytes 0x01 0x90 0x80 0x15 0x26) = 400 ∧ tempMagX10 (Memory.ofBytes 0x01 0x90 0x80 0x15 0x26) = 21 ∧
      checksumOk (Memory.ofBytes 0x01 0x90 0x81 0x15 0x27) = true ∧ tempNeg (Memory.ofBytes 0x01 0x90 0x81 0x15 0x27) = false ∧
      checksumOk (Memory.ofBytes 0x80 0x80 0x00 0x00 0x00) = false := by decide

/-- R81: `BYTE 0x01` takes 659 cycles and `HANDSHAKE` 230; `LINEIDLE` is 200 HIGH samples (95_test_vectors.md). -/
theorem test_expansions :
    (expand (.byte 0x01)).length = 659 ∧ (expand .handshake).length = 230 ∧ (expand .lineIdle).length = 200 := by
  simp only [expand, expandByte, expandBit, List.length_append, List.length_replicate]
  decide

/-- R82: `PULSE 27, 50` is `27 x 0b0011, 50 x 0b0010`. -/
theorem test_runLength : runLength (programWords [.pulse 27 50]) = [(27, 0b0011#4), (50, 0b0010#4)] := by decide

/-- R80: lines of a program, with a comment, a hexadecimal byte and an unknown mnemonic. -/
theorem test_assemble :
    readLine "PULSE 27, 50 ; a bit".toList = .ok (some (.pulse 27 50)) ∧
      readLine "BYTE 0xA5".toList = .ok (some (.byte 0xA5)) ∧ readLine "; only a comment".toList = .ok none ∧
      readLine "JUMP 3".toList = .error .unknownMnemonic := by decide

/-- H3, H4, H5: GPIO is checked first, then the pin. -/
theorem test_fatal_checks :
    (acquire false false [] State.reset).outcome = some (.failure .gpioInitFailed) ∧
      (acquire true false [] State.reset).outcome = some (.failure .invalidPin) ∧
      errorField (.failure .noData) = "NO_DATA" := by decide

/-! Witnesses: states and operands that meet the hypotheses of the statements, at the ends of their ranges. -/

/-- A pending word, and none: StepRunsTheDecodedWord. -/
theorem witness_StepRunsTheDecodedWord :
    (∃ s : State, s.stimulus = 0b0100#4 :: []) ∧ (∃ s : State, s.stimulus = []) :=
  ⟨⟨{ State.reset with stimulus := [0b0100#4] }, rfl⟩, ⟨State.reset, rfl⟩⟩

/-- Every combination of ports can be pending: StepFollowsThePortPriority, ResetClearsEveryRegister,
StartBeginsAFreshAttempt, NopChangesNothing. -/
theorem witness_ports_pending (a b c d : Bool) :
    ∃ s : State, s.state = .running ∧ s.stimulus = ControlWord.ofPorts a b c d :: [] :=
  ⟨{ running 0 0 0 0 0 [] with stimulus := [ControlWord.ofPorts a b c d] }, rfl, rfl⟩

/-- RunOfPendingWordsAppliesThemInOrder. -/
theorem witness_RunOfPendingWords :
    ∃ s : State, s.stimulus = [0b0100#4, 0b0011#4] ++ [0b0010#4] :=
  ⟨{ State.reset with stimulus := [0b0100#4, 0b0011#4, 0b0010#4] }, rfl⟩

/-- StateMovesAsTheTableSays: a sample in RUNNING, START and a sample outside it. -/
theorem witness_StateMovesAsTheTableSays :
    (running 0 0 0 0 0 []).state = .running ∧ stuckHigh.state ≠ .running ∧ State.reset.state ≠ .running := by decide

/-- PowerUpNeedsOneReset. -/
theorem witness_PowerUpNeedsOneReset : ControlWord.rst 0b1111#4 = true ∧ ControlWord.rst 0b1000#4 = true := by decide

/-- ResetClearsEveryRegister, AfterResetTheBlockWaitsInIdle: an answer to RESET, and the other operations. -/
theorem witness_reset_answers :
    exec .reset stuckHigh = .next State.reset ∧ Instr.nop ≠ .start ∧ Instr.sampleHigh ≠ .start := by
  exact ⟨rfl, by decide, by decide⟩

/-- StartBeginsAFreshAttempt: IDLE and DONE, and START's answer. -/
theorem witness_StartBeginsAFreshAttempt :
    State.reset.state ≠ .running ∧ stuckHigh.state ≠ .running ∧
      exec .start stuckHigh = .next { State.reset with state := .running } := by
  exact ⟨by decide, by decide, rfl⟩

/-- AttemptIsNotCancelledByStart: a running attempt a sample ends, one RESET abandons, and an ended one. -/
theorem witness_AttemptIsNotCancelledByStart :
    (∃ t, exec .sampleHigh (running 1000 199 5 0 3 []) = .next t ∧ t.state ≠ .running) ∧
      (∃ t, exec .reset (running 1000 199 5 0 3 []) = .next t ∧ t.state ≠ .running) ∧
      stuckHigh.state = .done ∧ Instr.sampleLow ≠ .reset ∧ Instr.sampleLow ≠ .start := by
  exact ⟨⟨_, rfl, by decide⟩, ⟨_, rfl, by decide⟩, rfl, by decide, by decide⟩

/-- SamplesOutsideAnAttemptDoNothing. -/
theorem witness_SamplesOutsideAnAttemptDoNothing : State.reset.state ≠ .running ∧ stuckHigh.state ≠ .running := by decide

/-- SampleHighCountsAndMayEndTheAttempt: going on, the abort, the watchdog, and both at once. -/
theorem witness_SampleHighCountsAndMayEndTheAttempt :
    ∀ s ∈ [running 0 0 0 0 0 [], running 0 199 0 0 0 [], running 49999 0 0 0 0 [], running 49999 199 0 0 0 []],
      s.state = .running ∧ s.wdCount.toNat < 65535 ∧ s.highCount.toNat < 255 := by decide

/-- LowSampleInALowRunOnlyCounts: below the watchdog's last sample, and at it. -/
theorem witness_LowSampleInALowRunOnlyCounts :
    (let s := running 49998 0 2 0 0 []
     s.state = .running ∧ s.highCount = 0 ∧ s.wdCount.toNat < 65535 ∧ s.wdCount + 1 ≠ 50000#16) ∧
    (let s := running 49999 0 2 0 0 []
     s.state = .running ∧ s.highCount = 0 ∧ s.wdCount.toNat < 65535 ∧ s.wdCount + 1 = 50000#16) := by decide

/-- PulseIsEmittedExactlyWhenARunEnds: an open run of 1 and of 199, and none. -/
theorem witness_PulseIsEmittedExactlyWhenARunEnds :
    (let s := running 5 1 0 0 0 []
     s.state = .running ∧ s.pulseIndex.toNat < 63 ∧ s.highCount ≠ 0 ∧ RunningInv Config.params s) ∧
    (let s := running 5 199 42 0 0 [(0, 1#8)]
     s.state = .running ∧ s.pulseIndex.toNat < 63 ∧ s.highCount ≠ 0 ∧ RunningInv Config.params s) ∧
    (let s := running 5 0 1 0 0 []
     s.state = .running ∧ s.pulseIndex.toNat < 63 ∧ s.highCount = 0) := by decide

/-- The same states answer a next state to both samples. -/
theorem witness_samples_answer :
    (∃ t, exec .sampleLow (running 5 1 0 0 0 []) = .next t) ∧ (∃ t, exec .sampleLow (running 5 0 1 0 0 []) = .next t) ∧
      (∃ t, exec .sampleHigh (running 5 199 2 0 0 []) = .next t) := by
  exact ⟨⟨_, rfl⟩, ⟨_, rfl⟩, ⟨_, rfl⟩⟩

/-- EverySampleConsumesOneTick. -/
theorem witness_EverySampleConsumesOneTick :
    (running 65534 0 0 0 0 []).wdCount.toNat < 65535 ∧ (running 65534 0 0 0 0 []).state = .running ∧
      stuckHigh.state ≠ .running ∧ stuckHigh.wdCount.toNat < 65535 := by decide

/-- OneSampleReportsInTheStatedOrder: each of its four clauses. -/
theorem witness_OneSampleReportsInTheStatedOrder :
    (let s := running 49999 199 41 0 7 []
     s.state = .running ∧ s.wdCount = 49999#16 ∧ s.highCount = 199#8) ∧
    (∀ s ∈ [running 49999 85 2 0 0 [], running 49999 199 41 0 7 []],
      s.state = .running ∧ s.wdCount = 49999#16 ∧ 85 ≤ s.highCount.toNat ∧ 2 ≤ s.pulseIndex.toNat ∧
        s.pulseIndex.toNat ≤ 41) ∧
    (let s := running 49999 1 42 0 0 []
     s.state = .running ∧ s.wdCount = 49999#16 ∧ s.highCount ≠ 0 ∧ s.pulseIndex = 42#6) ∧
    (let s := running 49999 84 41 0x13 7 []
     s.state = .running ∧ s.wdCount = 49999#16 ∧ s.highCount ≠ 0 ∧ s.highCount.toNat < 85 ∧ s.pulseIndex = 41#6 ∧
       s.bits = 7#4) := by decide

/-- WatchdogLeavesTheOpenRunUncounted: a run of 1 and the longest one, 199 with this sample. -/
theorem witness_WatchdogLeavesTheOpenRunUncounted :
    ∀ s ∈ [running 49999 0 0 0 0 [], running 49999 198 0 0 0 []],
      s.state = .running ∧ s.wdCount = 49999#16 ∧ s.highCount.toNat < 199 := by decide

/-- HandshakePulsesAreDiscarded and HandshakeDurationIsForgotten: pulse 1 and pulse 2, of 1 and of 199 samples. -/
theorem witness_handshake_pulses :
    (let s := running 20 1 0 0 0 []
     s.state = .running ∧ s.wdCount.toNat < 65535 ∧ s.highCount ≠ 0 ∧ s.pulseIndex = 0 ∧ s.pulseIndex.toNat < 2) ∧
    (let s := running 300 199 1 0 0 []
     s.state = .running ∧ s.wdCount.toNat < 65535 ∧ s.highCount ≠ 0 ∧ s.pulseIndex = 1 ∧ s.pulseIndex.toNat < 2) ∧
    (85#8 : BitVec 8) ≠ 0 := by decide

/-- DataBitIsShiftedIn: the first data pulse of 29, and one before a byte's last of 84. -/
theorem witness_DataBitIsShiftedIn :
    ∀ s ∈ [running 300 29 2 0 0 [], running 300 84 40 0x15 6 []],
      s.state = .running ∧ s.wdCount.toNat < 65535 ∧ s.highCount ≠ 0 ∧ s.highCount.toNat < 85 ∧
        2 ≤ s.pulseIndex.toNat ∧ s.pulseIndex.toNat ≤ 41 ∧ s.bits.toNat < 7 := by decide

/-- EighthBitStoresTheByte: the first byte and the last, in running attempts, and the earliest pulse it covers. -/
theorem witness_EighthBitStoresTheByte :
    (∀ s ∈ [running 900 84 9 1 7 [], running 4000 1 41 1 7 [(0, 1#8)]],
      s.state = .running ∧ s.wdCount.toNat < 65535 ∧ s.highCount ≠ 0 ∧ s.highCount.toNat < 85 ∧
        7 ≤ s.pulseIndex.toNat ∧ s.pulseIndex.toNat ≤ 41 ∧ s.bits = 7#4 ∧ RunningInv Config.params s) ∧
    (let s := running 900 84 7 1 7 []
     7 ≤ s.pulseIndex.toNat ∧ s.bits = 7#4) := by decide

/-- EighthBitStoresAtItsByteIndex: before pulse 8, from it on, and in a running attempt; a byte outside the stored one. -/
theorem witness_EighthBitStoresAtItsByteIndex :
    (∀ s ∈ [running 900 84 2 1 7 [], running 900 1 6 1 7 [], running 900 1 7 1 7 [], running 4000 84 41 1 7 []],
      s.state = .running ∧ s.wdCount.toNat < 65535 ∧ s.highCount ≠ 0 ∧ s.highCount.toNat < 85 ∧
        2 ≤ s.pulseIndex.toNat ∧ s.pulseIndex.toNat ≤ 41 ∧ s.bits = 7#4) ∧
    RunningInv Config.params (running 4000 84 41 1 7 []) ∧
    (∃ t, exec .sampleLow (running 900 84 9 1 7 []) = .next t) ∧
    (∀ k, byteIndex (9#6 + 1) = some k → 1 ≠ k.val) :=
  ⟨by decide, by decide, ⟨_, rfl⟩, by decide⟩

/-- UnclassifiableDataPulseEndsTheAttempt: the first data pulse of 85, and the last of 199 in a running attempt. -/
theorem witness_UnclassifiableDataPulseEndsTheAttempt :
    ∀ s ∈ [running 300 85 2 0 0 [], running 300 199 41 0 7 []],
      s.state = .running ∧ s.wdCount.toNat < 65535 ∧ 85 ≤ s.highCount.toNat ∧ 2 ≤ s.pulseIndex.toNat ∧
        s.pulseIndex.toNat ≤ 41 ∧ RunningInv Config.params s := by decide

/-- FortyFirstDataPulseOverflows. -/
theorem witness_FortyFirstDataPulseOverflows :
    ∀ s ∈ [running 3381 1 42 0 0 [], running 3381 199 42 0 0 []],
      s.state = .running ∧ s.wdCount.toNat < 65535 ∧ s.highCount ≠ 0 ∧ s.pulseIndex = 42#6 := by decide

/-- FortyDataBitsLandMostSignificantFirst: forty pulses of 1 and 84 samples. -/
theorem witness_FortyDataBitsLandMostSignificantFirst :
    (let s := running 240 0 2 0 0 []
     s.state = .running ∧ s.pulseIndex = 2#6 ∧ s.bits = 0#4 ∧ s.highCount = 0#8) ∧
    (let ds := List.replicate 20 1 ++ List.replicate 20 84
     ds.length = 40 ∧ (∀ d ∈ ds, 1 ≤ d ∧ d < 85) ∧ (240#16).toNat + trainSamples ds < 50000) := by decide

/-- EveryRegisterIsVisible: canonical Frames with equal outputs. -/
theorem witness_EveryRegisterIsVisible :
    stuckHigh.frame.wf ∧ { stuckHigh with stimulus := [0#4] }.frame.wf ∧
      stuckHigh.outputs = { stuckHigh with stimulus := [0#4] }.outputs := by decide

/-- PayloadSumMultipleOf256IsRejected and IncompleteFrameIsNeverAccepted: the frames of V54 and V45. -/
theorem witness_rejected_frames :
    ((Memory.read [(0, 0xFF#8), (1, 0x01#8)] 0).toNat + (Memory.read [(0, 0xFF#8), (1, 0x01#8)] 1).toNat +
        (Memory.read [(0, 0xFF#8), (1, 0x01#8)] 2).toNat + (Memory.read [(0, 0xFF#8), (1, 0x01#8)] 3).toNat) % 256 = 0 ∧
      Memory.read [(0, 0x01#8), (1, 0x90#8), (2, 0x80#8), (3, 0x15#8)] 4 = 0 := by decide

/-- The invariant holds of an ended attempt with an incomplete frame: IncompleteFrameIsNeverAccepted. -/
theorem witness_IncompleteFrameIsNeverAccepted :
    Safety.Inv Config.params stuckHigh ∧ stuckHigh.state = .done ∧
      stuckHigh.outputs.frameComplete = false ∧ stuckHigh.endCause = .abort :=
  ⟨⟨by decide, by decide, by decide, by decide, fun _ => by decide⟩, by decide, by decide, by decide⟩

/-- VerdictFollowsCauseAndFrame: a complete and an incomplete frame. -/
theorem witness_VerdictFollowsCauseAndFrame :
    (running 3750 0 42 0 0 []).outputs.dataBits = 40#6 ∧ (running 3750 0 41 0 7 []).outputs.dataBits ≠ 40#6 := by decide

/-- ByteTwoMattersOnlyForChecksumAndSign: the two signs, and two frames with one checksum. -/
theorem witness_ByteTwoMattersOnlyForChecksumAndSign :
    (running 0 0 42 0 0 [(2, 0x81#8)]).frame.read 2 ≠ 0x80#8 ∧ (running 0 0 42 0 0 [(2, 0x80#8)]).frame.read 2 = 0x80#8 ∧
      checksumCalc [(2, 0x80#8)] = checksumCalc [(3, 0x80#8)] ∧
      Memory.read [(2, 0x80#8)] 4 = Memory.read [(3, 0x80#8)] 4 := by decide

/-- ByteTwoMattersOnlyForChecksumAndSign: two Frames that differ in byte 2 alone, neither 0x80 there; and -0.0. -/
theorem witness_ByteTwo_reading :
    (∀ k ∈ [0, 1, 3], Memory.read [(1, 0x19#8), (2, 0x81#8)] k = Memory.read [(1, 0x19#8), (2, 0x01#8)] k) ∧
      (Memory.read [(1, 0x19#8), (2, 0x81#8)] 2 = 0x80#8 ↔ Memory.read [(1, 0x19#8), (2, 0x01#8)] 2 = 0x80#8) ∧
      (running 0 0 42 0 0 [(1, 1#8), (2, 0x80#8)]).reading = ⟨1, true, 0⟩ := by decide

/-- EveryChecksummedPayloadIsValid: S4's payload, and V55's, whose sum is above 255. -/
theorem witness_EveryChecksummedPayloadIsValid :
    (let s := running 3750 0 42 0 0 [(0, 0x01#8), (1, 0x90#8), (2, 0x80#8), (3, 0x15#8), (4, 0x26#8)]
     s.pulseIndex = 42#6 ∧ ((0x01#8).toNat + (0x90#8).toNat + (0x80#8).toNat + (0x15#8).toNat) % 256 ≠ 0 ∧
       s.frame = Memory.ofBytes 0x01 0x90 0x80 0x15
         (BitVec.ofNat 8 ((0x01#8).toNat + (0x90#8).toNat + (0x80#8).toNat + (0x15#8).toNat))) ∧
    ((0xFF#8).toNat + (0xFF#8).toNat + (0xFF#8).toNat + (0xFF#8).toNat) % 256 ≠ 0 := by decide

/-- AttemptEndWritesThreeRegisters and EveryEndingHasItsCauseAndVerdict: a running attempt each cause ends. -/
theorem witness_endings :
    (∀ s ∈ [running 1000 199 5 0 3 [], running 49999 0 5 0 3 [], running 315 85 2 0 0 [], running 3380 70 42 0 0 []],
      s.state = .running ∧ RunningInv Config.params s) ∧
    seen (fun t => (t.state, t.endCause)) (exec .sampleHigh (running 1000 199 5 0 3 [])) = some (.done, .abort) ∧
    seen (fun t => (t.state, t.endCause)) (exec .sampleLow (running 49999 0 5 0 3 [])) = some (.done, .watchdog) ∧
    seen (fun t => (t.state, t.endCause)) (exec .sampleLow (running 315 85 2 0 0 [])) = some (.done, .unclassifiable) ∧
    seen (fun t => (t.state, t.endCause)) (exec .sampleLow (running 3380 70 42 0 0 [])) = some (.done, .overflow) ∧
    seen (fun t => (t.state, t.endCause)) (exec .sampleLow stuckHigh) = some (.done, .abort) := by decide

/-- DoneHoldsUntilStartOrReset: an ended attempt, and another with the same host input. -/
theorem witness_DoneHoldsUntilStartOrReset :
    stuckHigh.state = .done ∧ (∀ i ∈ [Instr.sampleLow, .nop, .sampleHigh], i ≠ .start ∧ i ≠ .reset) ∧
      { stuckHigh with wdCount := 7#16 }.state = .done ∧ stuckHigh.stimulus = { stuckHigh with wdCount := 7#16 }.stimulus ∧
      stuckHigh.freeWords = { stuckHigh with wdCount := 7#16 }.freeWords := by decide

/-- SampleHighFrame, SampleLowFrame, ControlWordsFrame, FrameIsWrittenInTwoWays: answers in RUNNING, with a byte stored, and
outside it. -/
theorem witness_frames :
    (∃ t, exec .sampleHigh (running 5 3 2 0 0 []) = .next t ∧ t.state = .running) ∧
      (∃ t, exec .sampleLow (running 900 84 9 1 7 []) = .next t ∧ t.state = .running) ∧
      lowStoreIndex Config.params (running 900 84 9 1 7 []) = some 0 ∧
      lowStoreIndex Config.params (running 900 84 8 1 6 []) = none ∧
      (∃ t, exec .start (running 5 3 2 0 0 []) = .next t) ∧ (∃ t, exec .start stuckHigh = .next t) ∧
      (∃ t, exec .nop stuckHigh = .next t) :=
  ⟨⟨_, rfl, by decide⟩, ⟨_, rfl, by decide⟩, by decide, by decide, ⟨_, rfl⟩, ⟨_, rfl⟩, ⟨_, rfl⟩⟩

/-- EveryStepKeepsTheInvariant: a running attempt in the middle of a byte. -/
theorem witness_EveryStepKeepsTheInvariant :
    Safety.Inv Config.params (running 300 84 40 0x15 6 [(0, 1#8)]) ∧
      ∃ t, step { running 300 84 40 0x15 6 [(0, 1#8)] with stimulus := [0b0010#4] } = .next t :=
  ⟨⟨by decide, by decide, fun h => absurd h (by decide), fun _ => by decide, fun h => absurd h (by decide)⟩, ⟨_, rfl⟩⟩

/-- EveryStepKeepsTheInvariantForAllLegalParameters and CounterWidthsFollowTheParameters: the smallest legal limits, whose
counters are one bit wide (R21), with a running attempt of that block; and limits above this hardware's widths. -/
theorem witness_legal_parameters :
    (let P : Params := { Config.params with watchdogLimit := 1, pulseAbortLength := 1, bit1Min := 1, unclassMin := 1 }
     P.Legal ∧ Safety.Inv P ((State.powerUp [0b0011#4] : BlockOf P).clearRegisters .running)) ∧
    ({ Config.params with watchdogLimit := 65536, pulseAbortLength := 256 } : Params).Legal := by
  refine ⟨⟨by decide, ?_⟩, by decide⟩
  refine ⟨?_, ?_, fun h => ?_, fun _ => ?_, fun h => ?_⟩
  · exact ⟨by simp, by simp, by decide, by decide, by decide⟩
  · show (0#8).toNat < 2 ^ (0#4).toNat
    decide
  · cases h
  · exact ⟨by simp, by simp, by decide, by decide, by decide, rfl, rfl⟩
  · cases h

/-- R21's formula by hand: 1 needs 1 bit, 255 needs 8, 256 needs 9, 50000 needs 16 and 65536 needs 17. -/
theorem test_counterWidth :
    counterWidth 1 = 1 ∧ counterWidth 255 = 8 ∧ counterWidth 256 = 9 ∧ counterWidth 50000 = 16 ∧
      counterWidth 65536 = 17 := by
  norm_num [counterWidth, Nat.clog]

/-- IllegalParametersAreRefused: a parameter set that is not legal. -/
theorem witness_IllegalParametersAreRefused : ¬ ({ Config.params with bit1Min := 86 } : Params).Legal := by decide

/-- EveryStepKeepsTheFrameCanonical: a canonical Frame with several bytes. -/
theorem witness_EveryStepKeepsTheFrameCanonical : (running 900 84 41 1 7 [(0, 1#8), (3, 2#8)]).frame.wf := by decide

/-- AttemptEndsWithinTheWatchdogBudget: an attempt just begun, whose stuck line ends on the budget's last sample, and one
with a single sample left. -/
theorem witness_AttemptEndsWithinTheWatchdogBudget :
    (let s := running 49800 0 2 0 0 []
     s.state = .running ∧ RunningInv Config.params s ∧ s.highCount = 0 ∧ s.wdCount.toNat + 200 ≤ 50000) ∧
    (let s := running 49999 199 2 0 0 []
     s.state = .running ∧ RunningInv Config.params s ∧ 50000 - s.wdCount.toNat ≤ [Level.low].length) := by decide

/-- RetriesFollowTheContract: V48's frame whose line's 200th HIGH sample is still to come is a success; a line stuck HIGH in
three attempts (P2) is NoData. -/
theorem witness_RetriesFollowTheContract_success :
    ∃ r, (acquire true true [[.high]]
      (running 3949 199 42 0 0 (Memory.ofBytes 0x01 0x90 0x80 0x15 0x26))).outcome = some (.success r) := ⟨_, rfl⟩

/-- The same statement's clauses on one attempt: a VALID one, and one that ends TIMEOUT with attempts left. -/
theorem witness_RetriesFollowTheContract_attempt :
    (∃ r, (attempt [.high] (running 3949 199 42 0 0 (Memory.ofBytes 0x01 0x90 0x80 0x15 0x26))).2.validReading = some r) ∧
      (attempt [.high] (running 3949 199 41 0 7 [])).2.state = .done ∧
      (attempt [.high] (running 3949 199 41 0 7 [])).2.result ≠ .valid :=
  ⟨⟨_, rfl⟩, by decide, by decide⟩

theorem witness_RetriesFollowTheContract_noData :
    (acquire true true (List.replicate 3 (List.replicate 200 .high)) State.reset).outcome =
      some (.failure .noData) := by
  decide +kernel

/-- R181: whatever the block held, even a running attempt, the host's `rst` comes first and the acquisition starts in IDLE. -/
theorem test_hostRun :
    (hostRun [⟨true, false, []⟩] (running 5 3 2 0 0 [])).1 = [.give .reset] ∧
      (hostRun [⟨true, false, []⟩] (running 5 3 2 0 0 [])).2.map (fun a => (a.outcome, a.block)) =
        [(some (.failure .invalidPin), State.reset)] := by decide

/-- HostResetsOnceBeforeTheFirstAttempt: a block at power-up and another with the same host input, and a request with three
lines long enough. -/
theorem witness_HostResetsOnceBeforeTheFirstAttempt :
    stuckHigh.stimulus = (running 5 3 2 0 0 []).stimulus ∧ stuckHigh.freeWords = (running 5 3 2 0 0 []).freeWords ∧
      ∀ r ∈ [Request.mk true true (List.replicate 3 (List.replicate 50000 Level.high))],
        3 ≤ r.lines.length ∧ ∀ l ∈ r.lines, 50000 ≤ l.length := by
  refine ⟨rfl, rfl, fun r hr => ?_⟩
  rw [List.mem_singleton.1 hr]
  refine ⟨by rw [List.length_replicate], fun l hl => ?_⟩
  rw [(List.mem_replicate.1 hl).2, List.length_replicate]

/-- EveryAcquisitionReturnsAnOutcome: three lines long enough. -/
theorem witness_EveryAcquisitionReturnsAnOutcome :
    State.reset.state ≠ .running ∧ 3 ≤ (List.replicate 3 (List.replicate 50000 Level.high)).length ∧
      ∀ l ∈ List.replicate 3 (List.replicate 50000 Level.high), 50000 ≤ l.length := by
  refine ⟨by decide, by rw [List.length_replicate], fun l hl => ?_⟩
  rw [(List.mem_replicate.1 hl).2, List.length_replicate]

end Sys2Proof.Tests
end

section
/-! PROOFS. The parameter check (R6), a run over pending control words (R82), and the invariant of R28 and R29 kept by every
step of the block of any legal parameter set. -/

/-! The parameter check of R6. -/

namespace Sys2Proof

/-- The check passes the legal parameter sets and no other (R6). -/
theorem Params.check_eq_ok_iff (P : Params) : P.check = .ok () ↔ P.Legal := by
  unfold Params.check
  split_ifs with hWatchdog hAbort hBit1 hUnclass
  · exact ⟨nofun, fun ⟨h, _⟩ => by omega⟩
  · exact ⟨nofun, fun ⟨_, h, _⟩ => by omega⟩
  · exact ⟨nofun, fun ⟨_, _, h, _⟩ => by omega⟩
  · exact ⟨nofun, fun ⟨_, _, _, h⟩ => by omega⟩
  · exact ⟨fun _ => by omega, fun _ => rfl⟩

/-- The block of an illegal parameter set does not step (R6). -/
theorem Machine.stepOf_error {P : Params} (h : ¬ P.Legal) (s : Machine.BlockOf P) : ∃ e, Machine.stepOf P s = .error e := by
  unfold Machine.stepOf
  cases hc : P.check with
  | ok _ => exact absurd ((P.check_eq_ok_iff).1 hc) h
  | error e => exact ⟨e, rfl⟩

/-- Settles O54: the check agrees with R6 condition by condition, and the block's step follows the check. -/
theorem illegalParametersAreRefused : Obligations.IllegalParametersAreRefused :=
  ⟨Params.check_eq_ok_iff, fun _ s h => Machine.stepOf_error h s, rfl, rfl, rfl, rfl⟩

end Sys2Proof

/-! A run over pending control words. -/

namespace Sys2Proof.Machine

/-- A step with a pending word applies the word's operation and leaves the words after it pending. -/
theorem step_pending {s : State} {w : ControlWord} {ws : List ControlWord} (h : s.stimulus = w :: ws) :
    step s = .next ({ s with stimulus := ws }.apply (decodeWord w)) := by
  rw [step_eq, State.takeWord_cons h, State.controlWord_cons h]

/-- It makes no difference whether the pending words are replaced before an operation or after it. -/
theorem State.apply_with_stimulus (s : State) (i : Instr) (ws : List ControlWord) :
    { s with stimulus := ws }.apply i = { s.apply i with stimulus := ws } := by
  have h : (s.apply i).freeWords = s.freeWords := (State.apply_input i s).2
  calc { s with stimulus := ws }.apply i
      = (s.apply i).withInput ws s.freeWords := State.apply_withInput i s ws s.freeWords
    _ = { s.apply i with stimulus := ws } := by rw [← h]; rfl

/-- Settles O9, by induction on the words that are run. -/
theorem runOfPendingWordsAppliesThemInOrder : Obligations.RunOfPendingWordsAppliesThemInOrder := by
  intro ws rest
  induction ws with
  | nil =>
    intro s hs
    have hself : { s with stimulus := rest } = s := by rw [← show s.stimulus = rest from hs]
    exact congrArg Host.Outcome.next hself.symm
  | cons w ws ih =>
    intro s hs
    have hstep : core.step s = .next ({ s with stimulus := ws ++ rest }.apply (decodeWord w)) := step_pending hs
    have hpending : ({ s with stimulus := ws ++ rest }.apply (decodeWord w)).stimulus = ws ++ rest :=
      (State.apply_input _ _).1
    simp only [List.length_cons, Host.Core.run, hstep]
    refine (ih _ hpending).trans ?_
    rw [← State.apply_with_stimulus]
    rfl

end Sys2Proof.Machine

/-! The invariant, inside one sample. -/

namespace Sys2Proof.Safety

open Sys2Proof.Machine

variable {wW hW : Nat} {P : Params} {s : State wW hW}

/-- The accumulator and the Frame agree with `pulse_index`: the clauses of R28 about data, with AccInv and the Frame's form. -/
structure DataInv (s : State wW hW) : Prop where
  bits : s.bits.toNat = dataPulses s.pulseIndex.toNat % 8
  unstored : ∀ k : Fin 5, dataPulses s.pulseIndex.toNat / 8 ≤ k.val → s.frame.read k.val = 0
  acc : AccInv s
  wf : s.frame.wf

/-- A running attempt between the count of a sample and the watchdog test: R28, but the count may be at its limit. -/
structure SampleCounted (P : Params) (s : State wW hW) : Prop extends DataInv s where
  state : s.state = .running
  wdCount : s.wdCount.toNat ≤ P.watchdogLimit
  highCount : s.highCount.toNat < P.pulseAbortLength
  pulses : s.pulseIndex.toNat ≤ 42
  result : s.result = .none
  endCause : s.endCause = .none

/-- The registers at which the cause `e` ends an attempt (R200). No attempt ends with NONE. -/
def EndsBy (P : Params) (s : State wW hW) : EndCause → Prop
  | .none => False
  | .abort => s.highCount.toNat = P.pulseAbortLength ∧ s.pulseIndex.toNat ≤ 42
  | .watchdog =>
    s.wdCount.toNat = P.watchdogLimit ∧ s.highCount.toNat < P.pulseAbortLength ∧ s.pulseIndex.toNat ≤ 42
  | .unclassifiable => s.highCount.toNat = 0 ∧ 3 ≤ s.pulseIndex.toNat ∧ s.pulseIndex.toNat ≤ 42
  | .overflow => s.highCount.toNat = 0 ∧ s.pulseIndex.toNat = 43

/-- The end of an attempt establishes what R200 says of its cause. -/
theorem doneInv_finish {e : EndCause} (he : EndsBy P s e) (h4 : s.pulseIndex.toNat < 42 → s.frame.read 4 = 0) :
    DoneInv P (s.finish e) := by
  cases e with
  | none => exact he.elim
  | abort => exact ⟨nofun, rfl, fun _ => he, nofun, nofun, nofun, h4⟩
  | watchdog => exact ⟨nofun, rfl, nofun, fun _ => he, nofun, nofun, h4⟩
  | unclassifiable => exact ⟨nofun, rfl, nofun, nofun, fun _ => he, nofun, h4⟩
  | overflow => exact ⟨nofun, rfl, nofun, nofun, nofun, fun _ => he, h4⟩

/-- An attempt that ends with legal registers and an unwritten fifth byte, unless it is complete, meets the invariant. -/
theorem inv_finish {e : EndCause} (hl : LegalRegisters P s) (ha : AccInv s) (he : EndsBy P s e)
    (h4 : s.pulseIndex.toNat < 42 → s.frame.read 4 = 0) : Inv P (s.finish e) :=
  ⟨hl, ha, nofun, nofun, fun _ => doneInv_finish he h4⟩

theorem DataInv.bits_le_seven (h : DataInv s) : s.bits.toNat ≤ 7 := by
  have := h.bits
  omega

theorem DataInv.read_four (h : DataInv s) (hp : s.pulseIndex.toNat < 42) : s.frame.read 4 = 0 :=
  h.unstored 4 (show dataPulses s.pulseIndex.toNat / 8 ≤ 4 by unfold dataPulses; omega)

theorem SampleCounted.legalRegisters (h : SampleCounted P s) : LegalRegisters P s :=
  ⟨h.wdCount, h.highCount.le, h.pulses.trans (by decide), h.bits_le_seven, h.wf⟩

/-- The invariant of a running attempt gives its data clauses. -/
theorem Inv.dataInv (h : Inv P s) (hr : s.state = .running) : DataInv s := by
  obtain ⟨⟨_, _, _, _, hwf⟩, hacc, _, hrun, _⟩ := h
  obtain ⟨_, _, _, hbits, hunstored, _, _⟩ := hrun hr
  exact ⟨hbits, hunstored, hacc, hwf⟩

/-- Counting a sample of a running attempt (R124), where `wd_count` is wide enough for its limit. -/
theorem Inv.countSample (hw : P.watchdogLimit < 2 ^ wW) (h : Inv P s) (hr : s.state = .running) :
    SampleCounted P s.countSample := by
  have hdata := h.dataInv hr
  obtain ⟨_, _, _, hrun, _⟩ := h
  obtain ⟨hwd, hhigh, hpulses, _, _, hresult, hcause⟩ := hrun hr
  refine ⟨⟨hdata.bits, hdata.unstored, hdata.acc, hdata.wf⟩, hr, ?_, hhigh, hpulses, hresult, hcause⟩
  rw [State.countSample_wdCount, countUp_toNat (by omega)]
  omega

/-- The watchdog test ends the sample with the invariant restored (R126). -/
theorem SampleCounted.watchdogTest (h : SampleCounted P s) : Inv P (s.watchdogTest P) := by
  rcases s.watchdogTest_cases P with ⟨hlimit, heq⟩ | ⟨hlimit, heq⟩ <;> rw [heq]
  · exact inv_finish h.legalRegisters h.acc ⟨hlimit, h.highCount, h.pulses⟩ h.read_four
  · have hwd : s.wdCount.toNat < P.watchdogLimit := lt_of_le_of_ne h.wdCount hlimit
    have hrun : RunningInv P s := ⟨hwd, h.highCount, h.pulses, h.bits, h.unstored, h.result, h.endCause⟩
    refine ⟨h.legalRegisters, h.acc, ?_, fun _ => hrun, ?_⟩ <;> simp [h.state]

/-- The HIGH branch (R121), where `high_count` is wide enough for its limit. -/
theorem SampleCounted.sampleHigh (hh : P.pulseAbortLength < 2 ^ hW) (h : SampleCounted P s) : Inv P (s.sampleHigh P) := by
  have hlt := h.highCount
  have hcount : s.countHigh.highCount.toNat = s.highCount.toNat + 1 := countUp_toNat (by omega)
  rcases s.sampleHigh_cases P with ⟨habort, heq⟩ | ⟨habort, heq⟩ <;> rw [heq]
  · have hl : LegalRegisters P s.countHigh :=
      ⟨h.wdCount, habort.le, h.pulses.trans (by decide), h.bits_le_seven, h.wf⟩
    exact inv_finish hl h.acc ⟨habort, h.pulses⟩ h.read_four
  · have hbelow : s.countHigh.highCount.toNat < P.pulseAbortLength := lt_of_le_of_ne (by omega) habort
    have hcounted : SampleCounted P s.countHigh :=
      ⟨⟨h.bits, h.unstored, h.acc, h.wf⟩, h.state, h.wdCount, hbelow, h.pulses, h.result, h.endCause⟩
    exact hcounted.watchdogTest

/-! The invariant, over one pulse. -/

theorem countPulse_pulseIndex_toNat (hp : s.pulseIndex.toNat ≤ 42) :
    s.countPulse.pulseIndex.toNat = s.pulseIndex.toNat + 1 := countUp_toNat (by omega)

/-- A handshake pulse counts no data bit (R143). -/
theorem DataInv.countPulse_handshake (h : DataInv s) (hp : s.pulseIndex.toNat < 2) : DataInv s.countPulse := by
  have hcount := countPulse_pulseIndex_toNat (s := s) (by omega)
  have hsame : dataPulses s.countPulse.pulseIndex.toNat = dataPulses s.pulseIndex.toNat := by
    unfold dataPulses; omega
  exact ⟨by rw [hsame]; exact h.bits, by rw [hsame]; exact h.unstored, h.acc, h.wf⟩

/-- Clearing the accumulator where no bit of a byte is held. -/
theorem DataInv.clearAccumulator (h : DataInv s) (h0 : dataPulses s.pulseIndex.toNat % 8 = 0) :
    DataInv s.clearAccumulator :=
  ⟨h0.symm, h.unstored, Nat.two_pow_pos _, h.wf⟩

/-- One more bit at the accumulator's low end needs one more bit of room. -/
theorem shiftIn_acc_lt {a : BitVec 8} {n : Nat} (h : a.toNat < 2 ^ n) (c : Bool) :
    ((a <<< 1) ||| (BitVec.ofBool c).setWidth 8).toNat < 2 ^ (n + 1) := by
  have hpow : 2 ^ (n + 1) = 2 * 2 ^ n := by rw [pow_succ']
  have hshift : (a <<< 1).toNat < 2 ^ (n + 1) := by
    rw [BitVec.toNat_shiftLeft, Nat.shiftLeft_eq]
    omega
  have hbit : ((BitVec.ofBool c).setWidth 8).toNat < 2 ^ (n + 1) := by
    have : ((BitVec.ofBool c).setWidth 8).toNat ≤ 1 := by cases c <;> decide
    omega
  rw [BitVec.toNat_or]
  exact Nat.or_lt_two_pow hshift hbit

/-- The eighth bit goes to the byte of its data pulses, the last one that may hold anything (R147). -/
theorem DataInv.byteStore {u : State wW hW} (h : DataInv s) (hp : 2 ≤ s.pulseIndex.toNat) (hp' : s.pulseIndex.toNat < 42)
    (h7 : s.bits.toNat = 7) (hpulse : u.pulseIndex.toNat = s.pulseIndex.toNat + 1) (hframe : u.frame = s.frame) :
    DataInv u.byteStore := by
  have hbits := h.bits
  unfold dataPulses at hbits
  have hindex := byteIndex_eq (p := u.pulseIndex) (by omega) (by omega)
  rcases u.byteStore_cases with ⟨hnone, _⟩ | ⟨k, hk, heq⟩
  · rw [hindex] at hnone
    cases hnone
  · have hkval : u.pulseIndex.toNat / 8 - 1 = k.val := by
      rw [hindex] at hk
      exact congrArg Fin.val (Option.some.inj hk)
    rw [heq]
    refine ⟨?_, fun j hj => ?_, Nat.two_pow_pos _, ?_⟩
    · show 0 = dataPulses u.pulseIndex.toNat % 8
      unfold dataPulses; omega
    · have hj' : dataPulses u.pulseIndex.toNat / 8 ≤ j.val := hj
      unfold dataPulses at hj'
      have hread : s.frame.read j.val = 0 := h.unstored j (by unfold dataPulses; omega)
      show (u.frame.write k.val u.acc).read j.val = 0
      rw [Memory.read_write_other _ _ (by omega), hframe, hread]
    · show (u.frame.write k.val u.acc).wf
      rw [hframe]
      exact Memory.wf_write h.wf _ k.isLt

/-- A classified data pulse within the forty bits (R146, R147). -/
theorem DataInv.accumulate (h : DataInv s) (hp : 2 ≤ s.pulseIndex.toNat) (hp' : s.pulseIndex.toNat < 42) (c : Bool) :
    DataInv (s.countPulse.accumulate c) := by
  have hseven := h.bits_le_seven
  have hpulse := countPulse_pulseIndex_toNat (s := s) hp'.le
  have hcount : (countUp s.bits).toNat = s.bits.toNat + 1 := countUp_toNat (by omega)
  have hstores : countUp s.bits = 8 ↔ s.bits.toNat = 7 := by
    rw [BitVec.toNat_eq, hcount]
    exact Nat.succ_inj
  rcases s.countPulse.accumulate_cases c with ⟨h8, heq⟩ | ⟨h8, heq⟩ <;> rw [heq]
  · exact h.byteStore hp hp' (hstores.1 h8) hpulse rfl
  · have hbits := h.bits
    have hne : s.bits.toNat ≠ 7 := fun h7 => h8 (hstores.2 h7)
    unfold dataPulses at hbits
    refine ⟨?_, fun k hk => h.unstored k ?_, ?_, h.wf⟩
    · show (countUp s.bits).toNat = dataPulses s.countPulse.pulseIndex.toNat % 8
      rw [hcount, hpulse]
      unfold dataPulses; omega
    · have hk' : dataPulses s.countPulse.pulseIndex.toNat / 8 ≤ k.val := hk
      rw [hpulse] at hk'
      unfold dataPulses at hk' ⊢; omega
    · show ((s.acc <<< 1) ||| (BitVec.ofBool c).setWidth 8).toNat < 2 ^ (countUp s.bits).toNat
      rw [hcount]
      exact shiftIn_acc_lt h.acc c

/-- The clauses of a counted sample that a pulse leaves alone, put together with the data clauses after it. -/
theorem SampleCounted.of_dataInv (h : SampleCounted P s) {t : State wW hW} (ht : DataInv t)
    (hfields : ∃ a b m, t = { s.countPulse with acc := a, bits := b, frame := m }) (hp : s.pulseIndex.toNat < 42) :
    SampleCounted P t := by
  obtain ⟨a, b, m, rfl⟩ := hfields
  exact ⟨ht, h.state, h.wdCount, h.highCount, (countPulse_pulseIndex_toNat hp.le).trans_le hp, h.result, h.endCause⟩

/-- A pulse that ends the attempt changes nothing but the count of pulses (R142, R145). -/
theorem SampleCounted.finish_countPulse (h : SampleCounted P s) {e : EndCause} (he : EndsBy P s.countPulse e) :
    Inv P (s.countPulse.finish e) := by
  have hpulses := h.pulses
  have hpulse := countPulse_pulseIndex_toNat hpulses
  have hl : LegalRegisters P s.countPulse := ⟨h.wdCount, h.highCount.le, by omega, h.bits_le_seven, h.wf⟩
  exact inv_finish hl h.acc he fun h42 => h.read_four (by omega)

/-- PULSE (R140), where the run is closed: the sample goes on to the watchdog test, or the attempt ends. -/
theorem SampleCounted.pulse (h : SampleCounted P s) (h0 : s.highCount.toNat = 0) (d : Nat) :
    ((s.pulse P d).2 = .none → SampleCounted P (s.pulse P d).1) ∧
    ((s.pulse P d).2 ≠ .none → Inv P ((s.pulse P d).1.finish (s.pulse P d).2)) := by
  have hpulses := h.pulses
  have hpulse := countPulse_pulseIndex_toNat hpulses
  have hfields := s.countPulse.countedPulse_fields P d
  unfold State.pulse
  rcases s.countPulse.countedPulse_cases P d with
      ⟨hp, heq⟩ | ⟨hp, heq⟩ | ⟨hp, heq⟩ | ⟨hp, hp', ⟨_, heq⟩ | ⟨_, heq⟩ | ⟨_, heq⟩⟩ <;>
    rw [heq] at hfields ⊢
  · have hdata : DataInv s.countPulse := h.countPulse_handshake (by omega)
    exact ⟨fun _ => h.of_dataInv hdata hfields (by omega), fun hne => absurd rfl hne⟩
  · have hdata : DataInv s.countPulse := h.countPulse_handshake (by omega)
    have hcleared := hdata.clearAccumulator (by rw [hp]; rfl)
    exact ⟨fun _ => h.of_dataInv hcleared hfields (by omega), fun hne => absurd rfl hne⟩
  · exact ⟨nofun, fun _ => h.finish_countPulse ⟨h0, by omega⟩⟩
  · exact ⟨nofun, fun _ => h.finish_countPulse ⟨h0, hp, hp'⟩⟩
  · have hdata := h.toDataInv.accumulate (by omega) (by omega) false
    exact ⟨fun _ => h.of_dataInv hdata hfields (by omega), fun hne => absurd rfl hne⟩
  · have hdata := h.toDataInv.accumulate (by omega) (by omega) true
    exact ⟨fun _ => h.of_dataInv hdata hfields (by omega), fun hne => absurd rfl hne⟩

/-- The LOW branch (R122). -/
theorem SampleCounted.sampleLow (h : SampleCounted P s) : Inv P (s.sampleLow P) := by
  have hclosed : SampleCounted P s.clearRun :=
    ⟨⟨h.bits, h.unstored, h.acc, h.wf⟩, h.state, h.wdCount, (Nat.zero_le _).trans_lt h.highCount, h.pulses, h.result,
      h.endCause⟩
  obtain ⟨hgoesOn, hends⟩ := hclosed.pulse rfl s.highCount.toNat
  rcases s.sampleLow_cases P with ⟨_, heq⟩ | ⟨_, ⟨hev, heq⟩ | ⟨hev, heq⟩⟩ <;> rw [heq]
  · exact h.watchdogTest
  · exact (hgoesOn hev).watchdogTest
  · exact hends hev

/-! The invariant, over one step. -/

theorem legalRegisters_clearRegisters (P : Params) (s : State wW hW) (r : RunState) :
    LegalRegisters P (s.clearRegisters r) :=
  ⟨Nat.zero_le _, Nat.zero_le _, by simp, by simp, Memory.wf_nil⟩

theorem accInv_clearRegisters (s : State wW hW) (r : RunState) : AccInv (s.clearRegisters r) := Nat.two_pow_pos _

/-- RESET meets the invariant in every state (R102, R29). -/
theorem inv_resetWord (P : Params) (s : State wW hW) : Inv P s.resetWord :=
  ⟨legalRegisters_clearRegisters P s .idle, accInv_clearRegisters s .idle, fun _ => rfl, nofun, nofun⟩

/-- A fresh attempt meets the invariant (R103): a legal set has room for a sample and for a HIGH one. -/
theorem inv_clearRegisters_running (hP : P.Legal) (s : State wW hW) : Inv P (s.clearRegisters .running) := by
  obtain ⟨hwd, hhigh, _, _⟩ := hP
  have hrun : RunningInv P (s.clearRegisters .running) := ⟨hwd, hhigh, by simp, rfl, fun _ _ => rfl, rfl, rfl⟩
  exact ⟨legalRegisters_clearRegisters P s .running, accInv_clearRegisters s .running, nofun, fun _ => hrun, nofun⟩

/-- START keeps the invariant (R103, R104). -/
theorem Inv.startWord (hP : P.Legal) (h : Inv P s) : Inv P s.startWord := by
  rcases s.startWord_cases with ⟨_, heq⟩ | ⟨_, heq⟩ <;> rw [heq]
  · exact h
  · exact inv_clearRegisters_running hP s

/-- The host's input is no register, so the invariant does not read it. -/
theorem Inv.withInput (h : Inv P s) (ws : List ControlWord) (n : Nat) : Inv P (s.withInput ws n) := by
  obtain ⟨hl, ha, hidle, hrun, hdone⟩ := h
  exact ⟨hl, ha, fun hi => congrArg (·.withInput ws n) (hidle hi), hrun, hdone⟩

theorem Inv.takeWord (h : Inv P s) : Inv P s.takeWord := by
  cases hs : s.stimulus with
  | nil =>
    rw [State.takeWord_nil hs]
    exact h.withInput s.stimulus (s.freeWords + 1)
  | cons w ws =>
    rw [State.takeWord_cons hs]
    exact h.withInput ws s.freeWords

section
variable (hw : P.watchdogLimit < 2 ^ wW) (hh : P.pulseAbortLength < 2 ^ hW)
include hw hh

/-- A sample word keeps the invariant, where the counters are wide enough for their limits (R106, R120). -/
theorem Inv.sampleWord (h : Inv P s) (l : Level) : Inv P (s.sampleWord P l) := by
  rcases s.sampleWord_cases P l with ⟨hr, heq⟩ | ⟨_, heq⟩ <;> rw [heq]
  · cases l with
    | high => exact (h.countSample hw hr).sampleHigh hh
    | low => exact (h.countSample hw hr).sampleLow
  · exact h

/-- Every operation keeps the invariant (R28, R29). -/
theorem Inv.applyFor (hP : P.Legal) (h : Inv P s) (i : Instr) : Inv P (s.applyFor P i) := by
  cases i with
  | reset => exact inv_resetWord P s
  | start => exact h.startWord hP
  | sampleHigh => exact h.sampleWord hw hh .high
  | sampleLow => exact h.sampleWord hw hh .low
  | nop => exact h

/-- Every cycle keeps the invariant, at any widths that hold the limits. -/
theorem Inv.stepFor (hP : P.Legal) (h : Inv P s) : Inv P (s.stepFor P) :=
  h.takeWord.applyFor hw hh hP _

end

/-- Settles O51: the widths of R21 hold the limits, and a legal set's block steps. -/
theorem everyStepKeepsTheInvariantForAllLegalParameters :
    Obligations.EveryStepKeepsTheInvariantForAllLegalParameters := fun P s hP h =>
  ⟨s.stepFor P, stepOf_eq (P.check_eq_ok_iff.2 hP) s,
    h.stepFor (lt_two_pow_counterWidth P.watchdogLimit) (lt_two_pow_counterWidth P.pulseAbortLength) hP⟩

end Sys2Proof.Safety
end

section
/-! PROOFS. This hardware as one of R6's legal parameter sets: its counter widths and its invariant (R21, R28, R29); and
the outputs as functions of the registers, which leave no register hidden (R40, R42). -/

/-! The invariant and the widths. -/

namespace Sys2Proof.Safety

open Sys2Proof.Machine

/-- The values of R5 meet the conditions of R6. -/
theorem legal_params : Config.params.Legal := by decide

/-- Settles O50: this hardware's step is the parametric one, whose limits fit 16 and 8 bits. -/
theorem everyStepKeepsTheInvariant : Obligations.EveryStepKeepsTheInvariant := by
  intro s t h hstep
  rw [step_eq_stepFor] at hstep
  cases hstep
  exact h.stepFor (by decide) (by decide) legal_params

/-- Settles O58: a legal set's limits are at least 1, which is all that minimality of a width needs. -/
theorem counterWidthsFollowTheParameters : Obligations.CounterWidthsFollowTheParameters := by
  obtain ⟨hwdWidth, hhighWidth⟩ := counterWidth_params
  refine ⟨hwdWidth, hhighWidth, fun P ⟨hwd, habort, _, _⟩ => ?_, step_eq_stepFor⟩
  exact ⟨lt_two_pow_counterWidth _, two_pow_counterWidth_le hwd,
    lt_two_pow_counterWidth _, two_pow_counterWidth_le habort⟩

end Sys2Proof.Safety

/-! The outputs. -/

namespace Sys2Proof.Machine

variable {wW hW : Nat}

theorem State.busy_iff (s : State wW hW) : s.busy = true ↔ s.state = .running := beq_iff_eq

theorem State.isDone_iff (s : State wW hW) : s.isDone = true ↔ s.state = .done := beq_iff_eq

/-- `data_bits` in exact arithmetic: its width loses nothing (R40). -/
theorem dataBits_toNat (p : BitVec 6) :
    (dataBits p).toNat = if p.toNat ≤ 2 then 0 else min (p.toNat - 2) 40 := by
  unfold dataBits
  split_ifs with hp
  · rfl
  · exact Nat.mod_eq_of_lt (show min (p.toNat - 2) 40 < 2 ^ 6 by omega)

/-- Settles O34: every port but the four flags and counts that are computed is the register or its code itself. -/
theorem outputsShowTheRegisters : Obligations.OutputsShowTheRegisters := fun s =>
  ⟨s.busy_iff, s.isDone_iff, rfl, rfl, rfl, rfl, rfl, rfl, rfl, dataBits_toNat s.pulseIndex, frameComplete_iff,
    rfl, rfl, rfl, rfl, rfl, rfl⟩

/-! No register is hidden. -/

theorem stateOfCode_stateCode (r : RunState) : stateOfCode (stateCode r) = some r := by cases r <;> rfl

theorem resultOfCode_resultCode (v : Verdict) : resultOfCode (resultCode v) = v := by cases v <;> rfl

theorem causeOfCode_causeCode (e : EndCause) : causeOfCode (causeCode e) = some e := by cases e <;> rfl

theorem stateCode_injective : Function.Injective stateCode := fun a b h =>
  Option.some.inj (by rw [← stateOfCode_stateCode a, h, stateOfCode_stateCode])

theorem resultCode_injective : Function.Injective resultCode :=
  Function.LeftInverse.injective resultOfCode_resultCode

theorem causeCode_injective : Function.Injective causeCode := fun a b h =>
  Option.some.inj (by rw [← causeOfCode_causeCode a, h, causeOfCode_causeCode])

/-- The five bytes determine a canonical Frame, since it holds nothing outside them (R50, R53). -/
theorem Memory.ext_of_bytes {m n : Memory} (hm : m.wf) (hn : n.wf) (h : ∀ k : Fin 5, m.read k.val = n.read k.val) :
    m = n := by
  refine Memory.ext_of_wf hm hn fun a => ?_
  rcases Nat.lt_or_ge a 5 with ha | ha
  · exact h ⟨a, ha⟩
  · rw [Memory.read_outside hm ha, Memory.read_outside hn ha]

/-- The frame ports show all five bytes (R40). -/
theorem State.read_frame_of_outputs_eq {s t : State wW hW} (h : s.outputs = t.outputs) :
    ∀ k : Fin 5, s.frame.read k.val = t.frame.read k.val
  | 0 => congrArg Outputs.frame0 h
  | 1 => congrArg Outputs.frame1 h
  | 2 => congrArg Outputs.frame2 h
  | 3 => congrArg Outputs.frame3 h
  | 4 => congrArg Outputs.frame4 h

/-- Equal outputs leave only the host's input to differ (R42). -/
theorem State.eq_withInput_of_outputs_eq {s t : State wW hW} (hs : s.frame.wf) (ht : t.frame.wf)
    (h : s.outputs = t.outputs) : s = t.withInput s.stimulus s.freeWords := by
  have hstate : s.state = t.state := stateCode_injective (congrArg Outputs.dbgState h)
  have hresult : s.result = t.result := resultCode_injective (congrArg Outputs.result h)
  have hcause : s.endCause = t.endCause := causeCode_injective (congrArg Outputs.endCause h)
  have hframe : s.frame = t.frame := Memory.ext_of_bytes hs ht (State.read_frame_of_outputs_eq h)
  have hwd : s.wdCount = t.wdCount := congrArg Outputs.dbgWdCount h
  have hhigh : s.highCount = t.highCount := congrArg Outputs.dbgHighCount h
  have hpulse : s.pulseIndex = t.pulseIndex := congrArg Outputs.dbgPulseIndex h
  have hacc : s.acc = t.acc := congrArg Outputs.dbgAcc h
  have hbits : s.bits = t.bits := congrArg Outputs.dbgBits h
  unfold State.withInput
  rw [← hstate, ← hwd, ← hhigh, ← hpulse, ← hacc, ← hbits, ← hframe, ← hresult, ← hcause]

/-- Settles O35: the debug ports are registers, the code ports are injective, and the frame ports fix a canonical Frame. -/
theorem everyRegisterIsVisible : Obligations.EveryRegisterIsVisible := fun _ _ =>
  State.eq_withInput_of_outputs_eq

end Sys2Proof.Machine
end

section
/-! PROOFS. The Frame: the two ways it is written (R51), its canonical form (R50, R53), and where the bits of forty data
pulses land in it (R55). -/

/-! The two ways the Frame is written. -/

namespace Sys2Proof.Machine

variable {wW hW : Nat}

open Sys2Proof.Safety

@[simp] theorem State.watchdogTest_frame (P : Params) (s : State wW hW) : (s.watchdogTest P).frame = s.frame := by
  rcases s.watchdogTest_cases P with ⟨_, h⟩ | ⟨_, h⟩ <;> rw [h]
  rfl

@[simp] theorem State.takeWord_frame (s : State wW hW) : s.takeWord.frame = s.frame := by
  cases hs : s.stimulus with
  | nil => rw [State.takeWord_nil hs]
  | cons w ws => rw [State.takeWord_cons hs]

theorem lt_bit1Min_of_classify_bit0 {P : Params} {d : Nat} (h : classify P d = .bit0) : d < P.bit1Min := by
  by_contra hd
  rw [classify, if_neg hd] at h
  split at h <;> cases h

theorem bit1Min_le_of_classify_bit1 {P : Params} {d : Nat} (h : classify P d = .bit1) : P.bit1Min ≤ d := by
  by_contra hd
  rw [classify, if_pos (Nat.lt_of_not_le hd)] at h
  cases h

/-- A classified data pulse within the forty bits is accumulated, and ends nothing (R145, R146). -/
theorem State.countedPulse_data {P : Params} {s : State wW hW} {d : Nat} (h2 : 2 < s.pulseIndex.toNat)
    (h42 : s.pulseIndex.toNat ≤ 42) (hc : classify P d ≠ .unclassifiable) :
    s.countedPulse P d = (s.accumulate (decide (P.bit1Min ≤ d)), .none) := by
  rcases s.countedPulse_cases P d with ⟨hp, _⟩ | ⟨hp, _⟩ | ⟨hp, _⟩ | ⟨_, _, ⟨h, _⟩ | ⟨h, heq⟩ | ⟨h, heq⟩⟩
  · omega
  · omega
  · omega
  · exact absurd h hc
  · rw [heq, decide_eq_false (lt_bit1Min_of_classify_bit0 h).not_ge]
  · rw [heq, decide_eq_true (bit1Min_le_of_classify_bit1 h)]

/-- `accumulate` leaves the Frame as it is, or writes the whole accumulator to one byte (R147). -/
theorem State.accumulate_frame_cases (s : State wW hW) (c : Bool) :
    (s.accumulate c).frame = s.frame ∨
    ∃ k, countUp s.bits = 8 ∧ byteIndex s.pulseIndex = some k ∧
      (s.accumulate c).frame = s.frame.write k.val (s.shiftIn c).acc := by
  rcases s.accumulate_cases c with ⟨h8, heq⟩ | ⟨_, heq⟩ <;> rw [heq]
  · rcases (s.shiftIn c).byteStore_cases with ⟨_, hstore⟩ | ⟨k, hk, hstore⟩ <;> rw [hstore]
    · exact .inl rfl
    · exact .inr ⟨k, h8, hk, rfl⟩
  · exact .inl rfl

/-- The only pulse that writes the Frame is a classified data pulse (R140). -/
theorem State.countedPulse_frame_cases (P : Params) (d : Nat) (s : State wW hW) :
    (s.countedPulse P d).1.frame = s.frame ∨
    ∃ k, 2 < s.pulseIndex.toNat ∧ s.pulseIndex.toNat ≤ 42 ∧ classify P d ≠ .unclassifiable ∧ countUp s.bits = 8 ∧
      byteIndex s.pulseIndex = some k ∧
      (s.countedPulse P d).1.frame = s.frame.write k.val (s.shiftIn (decide (P.bit1Min ≤ d))).acc := by
  rcases s.countedPulse_cases P d with ⟨_, h⟩ | ⟨_, h⟩ | ⟨_, h⟩ | ⟨h2, h42, ⟨_, h⟩ | hdata⟩
  · exact .inl (congrArg (·.1.frame) h)
  · exact .inl (congrArg (·.1.frame) h)
  · exact .inl (congrArg (·.1.frame) h)
  · exact .inl (congrArg (·.1.frame) h)
  · have hc : classify P d ≠ .unclassifiable := by rcases hdata with ⟨h, _⟩ | ⟨h, _⟩ <;> simp [h]
    rw [State.countedPulse_data h2 h42 hc]
    exact (s.accumulate_frame_cases _).imp_right fun ⟨k, h8, hk, heq⟩ => ⟨k, h2, h42, hc, h8, hk, heq⟩

@[simp] theorem State.sampleHigh_frame (P : Params) (s : State wW hW) : (s.sampleHigh P).frame = s.frame := by
  rcases s.sampleHigh_cases P with ⟨_, h⟩ | ⟨_, h⟩ <;> rw [h] <;> simp

/-- SAMPLE_LOW writes the Frame only by the pulse it ends (R122). -/
theorem State.sampleLow_frame (P : Params) (s : State wW hW) :
    (s.sampleLow P).frame =
      if s.highCount.toNat = 0 then s.frame else (s.clearRun.pulse P s.highCount.toNat).1.frame := by
  rcases s.sampleLow_cases P with ⟨h0, h⟩ | ⟨h0, ⟨_, h⟩ | ⟨_, h⟩⟩ <;> rw [h] <;> simp [h0]

/-- The Frame after a sample word of level LOW: as before, or with one byte stored at `lowStoreIndex` (R51, R147). -/
theorem State.sampleWord_low_frame_cases (P : Params) (s : State wW hW) :
    (s.sampleWord P .low).frame = s.frame ∨
    ∃ k, lowStoreIndex P s = some k ∧
      (s.sampleWord P .low).frame = s.frame.write k.val (s.shiftIn (decide (P.bit1Min ≤ s.highCount.toNat))).acc := by
  rcases s.sampleWord_cases P .low with ⟨hr, h⟩ | ⟨_, h⟩ <;> rw [h]
  · show (s.countSample.sampleLow P).frame = _ ∨ ∃ k, _ ∧ (s.countSample.sampleLow P).frame = _
    rw [State.sampleLow_frame]
    split_ifs with h0
    · exact .inl rfl
    · rcases s.countSample.clearRun.countPulse.countedPulse_frame_cases P s.highCount.toNat with
        heq | ⟨k, h2, h42, hc, h8, hk, heq⟩
      · exact .inl heq
      · exact .inr ⟨k, (if_pos ⟨hr, h0, h2, h42, hc, h8⟩).trans hk, heq⟩
  · exact .inl rfl

/-- Every way an operation writes the Frame (R51). -/
theorem State.applyFor_frame_cases (P : Params) (s : State wW hW) (i : Instr) :
    (s.applyFor P i).frame = s.frame ∨
    ((i = .reset ∨ i = .start) ∧ (s.applyFor P i).frame = []) ∨
    (i = .sampleLow ∧ ∃ k, lowStoreIndex P s = some k ∧
      (s.applyFor P i).frame = s.frame.write k.val (s.shiftIn (decide (P.bit1Min ≤ s.highCount.toNat))).acc) := by
  cases i with
  | reset => exact .inr (.inl ⟨.inl rfl, rfl⟩)
  | start =>
    rcases s.startWord_cases with ⟨_, h⟩ | ⟨_, h⟩
    · exact .inl (congrArg State.frame h)
    · exact .inr (.inl ⟨.inr rfl, congrArg State.frame h⟩)
  | sampleHigh =>
    rcases s.sampleWord_cases P .high with ⟨_, h⟩ | ⟨_, h⟩
    · exact .inl ((congrArg State.frame h).trans (s.countSample.sampleHigh_frame P))
    · exact .inl (congrArg State.frame h)
  | sampleLow => exact (s.sampleWord_low_frame_cases P).imp_right fun hstore => .inr ⟨rfl, hstore⟩
  | nop => exact .inl rfl

/-- Settles O48: the three ways of `applyFor`, with the stored byte in the statement's arithmetic. -/
theorem frameIsWrittenInTwoWays : Obligations.FrameIsWrittenInTwoWays := by
  intro s t i h
  rw [exec_next_iff] at h
  subst h
  rcases s.applyFor_frame_cases Config.params i with heq | ⟨hi, heq⟩ | ⟨hi, k, hk, heq⟩
  · exact .inl heq
  · exact .inr (.inl ⟨hi, fun k => congrArg (Memory.read · k.val) heq⟩)
  · have hacc : (s.shiftIn (decide (30 ≤ s.highCount.toNat))).acc = shifted s.acc s.highCount.toNat :=
      shiftIn_acc_eq s.acc s.highCount.toNat
    exact .inr (.inr ⟨hi, k, hk, heq.trans (congrArg (s.frame.write k.val) hacc)⟩)

/-! The canonical form. -/

/-- An operation keeps the Frame canonical: it clears the list, or writes one of the five bytes (R50, R53). -/
theorem State.applyFor_frame_wf (P : Params) {s : State wW hW} (h : s.frame.wf) (i : Instr) :
    (s.applyFor P i).frame.wf := by
  rcases s.applyFor_frame_cases P i with heq | ⟨_, heq⟩ | ⟨_, k, _, heq⟩ <;> rw [heq]
  · exact h
  · exact Memory.wf_nil
  · exact Memory.wf_write h _ k.isLt

/-- Settles O52: taking the control word leaves the Frame, and every operation keeps its form. -/
theorem everyStepKeepsTheFrameCanonical : Obligations.EveryStepKeepsTheFrameCanonical := by
  intro s t h hstep
  rw [step_eq_stepFor] at hstep
  cases hstep
  exact State.applyFor_frame_wf Config.params (by rwa [State.takeWord_frame]) _

end Sys2Proof.Machine

/-! Where the bits of a pulse train land. -/

namespace Sys2Proof.Safety

open Sys2Proof.Machine

/-- `n` data bits have come in since the handshake, the `i`-th of them (from 0) equal to `bit i`: the bits of whole bytes
are in the Frame, and those of the byte not yet whole in `acc`, the first one highest (R55, R146, R147). -/
structure BitsLanded {wW hW : Nat} (bit : Nat → Bool) (n : Nat) (s : State wW hW) : Prop where
  pulses : s.pulseIndex.toNat = n + 2
  bits : s.bits.toNat = n % 8
  stored : ∀ i, i / 8 < n / 8 → (s.frame.read (i / 8)).getLsbD (7 - i % 8) = bit i
  held : ∀ i, i < n → i / 8 = n / 8 → s.acc.getLsbD (n - 1 - i) = bit i

/-- A running attempt with `n` data bits in and `w` samples counted, whose open HIGH run is `d` samples long. -/
structure AttemptAt (bit : Nat → Bool) (n w d : Nat) (s : State) : Prop extends BitsLanded bit n s where
  state : s.state = .running
  wdCount : s.wdCount.toNat = w
  highCount : s.highCount.toNat = d

section
variable {wW hW : Nat} {bit : Nat → Bool} {n : Nat} {s : State wW hW}

/-- Bit 0 of a shifted accumulator is the new bit. -/
theorem shiftIn_acc_getLsbD_zero (s : State wW hW) (c : Bool) : (s.shiftIn c).acc.getLsbD 0 = c := by
  simp [State.shiftIn]

/-- The bits a shifted accumulator held before stand one place higher. -/
theorem shiftIn_acc_getLsbD_succ (s : State wW hW) (c : Bool) {j : Nat} (hj : j < 7) :
    (s.shiftIn c).acc.getLsbD (j + 1) = s.acc.getLsbD j := by
  simpa [State.shiftIn] using fun _ => Nat.succ_lt_succ hj

/-- The shift of one more bit keeps the order of the byte's bits (R146). -/
theorem BitsLanded.held_shiftIn (h : BitsLanded bit n s) {i : Nat} (hi : i ≤ n) (hbyte : i / 8 = n / 8) :
    (s.shiftIn (bit n)).acc.getLsbD (n - i) = bit i := by
  rcases Nat.lt_or_eq_of_le hi with hlt | rfl
  · have hplace : n - i = n - 1 - i + 1 := by omega
    rw [hplace, shiftIn_acc_getLsbD_succ _ _ (by omega)]
    exact h.held i hlt hbyte
  · rw [Nat.sub_self, shiftIn_acc_getLsbD_zero]

/-- A bit that leaves its byte unfinished is held (R146). -/
theorem BitsLanded.shiftIn (h : BitsLanded bit n s) (hn : n < 40) (h7 : n % 8 ≠ 7) :
    BitsLanded bit (n + 1) (s.countPulse.shiftIn (bit n)) := by
  have hp := h.pulses
  have hb := h.bits
  refine ⟨?_, ?_, fun i hi => h.stored i (by omega), fun i hi hbyte => ?_⟩
  · show (countUp s.pulseIndex).toNat = n + 1 + 2
    rw [countUp_toNat (by omega), hp]
  · show (countUp s.bits).toNat = (n + 1) % 8
    rw [countUp_toNat (by omega), hb]
    omega
  · exact h.held_shiftIn (by omega) (by omega)

/-- A byte's eighth bit stores the byte at its place (R147). -/
theorem BitsLanded.byteStore (h : BitsLanded bit n s) (hn : n < 40) (h7 : n % 8 = 7) :
    BitsLanded bit (n + 1) (s.countPulse.shiftIn (bit n)).byteStore := by
  have hp := h.pulses
  have hcount : (countUp s.pulseIndex).toNat = n + 3 := by rw [countUp_toNat (by omega), hp]
  have hindex : byteIndex (countUp s.pulseIndex) = some ⟨n / 8, by omega⟩ := by
    rw [byteIndex_eq (by omega) (by omega)]
    exact congrArg some (Fin.ext (by show _ / 8 - 1 = n / 8; omega))
  rcases (s.countPulse.shiftIn (bit n)).byteStore_cases with ⟨hnone, _⟩ | ⟨k, hk, heq⟩
  · cases hindex.symm.trans hnone
  · obtain rfl : ⟨n / 8, by omega⟩ = k := Option.some.inj (hindex.symm.trans hk)
    rw [heq]
    refine ⟨hcount, ?_, fun i hi => ?_, fun i hi hbyte => absurd hbyte (by omega)⟩
    · show 0 = (n + 1) % 8
      omega
    · show ((s.frame.write (n / 8) (s.shiftIn (bit n)).acc).read (i / 8)).getLsbD (7 - i % 8) = bit i
      by_cases hbyte : i / 8 = n / 8
      · have hplace : 7 - i % 8 = n - i := by omega
        rw [hbyte, Memory.read_write_same, hplace]
        exact h.held_shiftIn (by omega) hbyte
      · rw [Memory.read_write_other _ _ hbyte]
        exact h.stored i (by omega)

/-- One more classified data pulse lands its bit (R146, R147). -/
theorem BitsLanded.accumulate (h : BitsLanded bit n s) (hn : n < 40) :
    BitsLanded bit (n + 1) (s.countPulse.accumulate (bit n)) := by
  have hbits := h.bits
  have hcount : (countUp s.bits).toNat = n % 8 + 1 := by rw [countUp_toNat (by omega), hbits]
  have hstores : countUp s.bits = 8 ↔ n % 8 = 7 := by
    rw [BitVec.toNat_eq, hcount]
    exact Nat.succ_inj
  rcases s.countPulse.accumulate_cases (bit n) with ⟨h8, heq⟩ | ⟨h8, heq⟩ <;> rw [heq]
  · exact h.byteStore hn (hstores.1 h8)
  · exact h.shiftIn hn (mt hstores.2 h8)

end

/-! A pulse train, on this hardware. -/

/-- The watchdog rule has no effect below the limit (R126). -/
theorem withWatchdog_of_lt {u : State} (h : u.wdCount.toNat < 50000) : withWatchdog u = u :=
  if_neg fun heq => by simp [heq] at h

theorem classify_params_ne_unclassifiable {d : Nat} (hd : d < 85) : classify Config.params d ≠ .unclassifiable := by
  rw [classify_params, if_pos hd]
  split_ifs <;> simp

/-- A HIGH sample that reaches neither limit is counted (R121). -/
theorem apply_sampleHigh_of_lt {s : State} (hr : s.state = .running) (hw : s.wdCount.toNat + 1 < 50000)
    (hh : s.highCount.toNat + 1 < 200) :
    s.apply .sampleHigh = { s with wdCount := s.wdCount + 1, highCount := s.highCount + 1 } := by
  have hwd : (s.wdCount + 1).toNat < 50000 := by bv_omega
  have habort : s.highCount + 1 ≠ 200#8 := by bv_omega
  rw [State.apply_sampleHigh hr (by omega) (by omega)]
  exact (if_neg habort).trans (withWatchdog_of_lt hwd)

/-- A LOW sample that ends a classified data pulse within the forty bits and the budget accumulates its bit (R122, R146). -/
theorem apply_sampleLow_dataPulse {s : State} (hr : s.state = .running) (hw : s.wdCount.toNat + 1 < 50000)
    (hd : 1 ≤ s.highCount.toNat) (hd' : s.highCount.toNat < 85) (h2 : 2 ≤ s.pulseIndex.toNat)
    (h42 : s.pulseIndex.toNat < 42) :
    s.apply .sampleLow =
      State.accumulate (State.countPulse { s with wdCount := s.wdCount + 1, highCount := 0 })
        (decide (30 ≤ s.highCount.toNat)) := by
  set u : State := { s with wdCount := s.wdCount + 1, highCount := 0 }
  have hopen : s.highCount ≠ 0 := by bv_omega
  have hcount : u.countPulse.pulseIndex.toNat = s.pulseIndex.toNat + 1 :=
    countUp_toNat (show s.pulseIndex.toNat + 1 < 64 by omega)
  have hpulse : u.countPulse.countedPulse Config.params s.highCount.toNat = _ :=
    State.countedPulse_data (by omega) (by omega) (classify_params_ne_unclassifiable hd')
  have hbudget : (u.countPulse.accumulate (decide (30 ≤ s.highCount.toNat))).wdCount.toNat < 50000 := by
    obtain ⟨_, _, _, hfields⟩ := u.countPulse.accumulate_fields (decide (30 ≤ s.highCount.toNat))
    rw [hfields]
    show (s.wdCount + 1).toNat < 50000
    bv_omega
  rw [State.apply_sampleLow_run hr (by omega) hopen]
  show (if (u.countPulse.countedPulse Config.params s.highCount.toNat).2 = .none then _ else _) = _
  rw [if_pos (congrArg Prod.snd hpulse)]
  exact (congrArg (withWatchdog ·.1) hpulse).trans (withWatchdog_of_lt hbudget)

section
variable {bit : Nat → Bool} {n w d : Nat} {s : State}

/-- A HIGH sample within the limits makes the open run longer. -/
theorem AttemptAt.sampleHigh (h : AttemptAt bit n w d s) (hw : w + 1 < 50000) (hd : d + 1 < 200) :
    AttemptAt bit n (w + 1) (d + 1) (s.apply .sampleHigh) := by
  obtain ⟨⟨hp, hb, hstored, hheld⟩, hr, hwd, hhigh⟩ := h
  rw [apply_sampleHigh_of_lt hr (by omega) (by omega)]
  refine ⟨⟨hp, hb, hstored, hheld⟩, hr, ?_, ?_⟩
  · show (s.wdCount + 1).toNat = w + 1
    bv_omega
  · show (s.highCount + 1).toNat = d + 1
    bv_omega

/-- `k` consecutive HIGH samples within the limits make it `k` longer. -/
theorem AttemptAt.replicate_sampleHigh (k : Nat) (h : AttemptAt bit n w d s) (hw : w + k < 50000) (hd : d + k < 200) :
    AttemptAt bit n (w + k) (d + k) (s.applyAll (List.replicate k .sampleHigh)) := by
  induction k generalizing w d s with
  | zero => exact h
  | succ k ih =>
    have hnext := ih (h.sampleHigh (by omega) (by omega)) (by omega) (by omega)
    rwa [Nat.add_right_comm, Nat.add_right_comm d] at hnext

/-- The LOW sample that ends a data pulse lands its bit. -/
theorem AttemptAt.sampleLow (h : AttemptAt bit n w d s) (hw : w + 1 < 50000) (hd : 1 ≤ d ∧ d < 85) (hn : n < 40)
    (hbit : bit n = decide (30 ≤ d)) : AttemptAt bit (n + 1) (w + 1) 0 (s.apply .sampleLow) := by
  obtain ⟨⟨hp, hb, hstored, hheld⟩, hr, hwd, rfl⟩ := h
  rw [apply_sampleLow_dataPulse hr (by omega) hd.1 hd.2 (by omega) (by omega), ← hbit]
  set u : State := { s with wdCount := s.wdCount + 1, highCount := 0 }
  have hu : BitsLanded bit n u := ⟨hp, hb, hstored, hheld⟩
  have hlanded := hu.accumulate hn
  obtain ⟨_, _, _, hfields⟩ := u.countPulse.accumulate_fields (bit n)
  rw [hfields] at hlanded ⊢
  refine ⟨hlanded, hr, ?_, rfl⟩
  show (s.wdCount + 1).toNat = w + 1
  bv_omega

end

/-- A train of data pulses lands its bits one after the other. -/
theorem AttemptAt.applyAll_pulseTrain {bit : Nat → Bool} {n w : Nat} {s : State} (ds : List Nat) (h : AttemptAt bit n w 0 s)
    (hd : ∀ d ∈ ds, 1 ≤ d ∧ d < 85) (hn : n + ds.length ≤ 40) (hw : w + trainSamples ds < 50000)
    (hbit : ∀ i, i < ds.length → bit (n + i) = decide (30 ≤ ds.getD i 0)) :
    AttemptAt bit (n + ds.length) (w + trainSamples ds) 0 (s.applyAll (pulseTrain ds)) := by
  induction ds generalizing n w s with
  | nil => exact h
  | cons d ds ih =>
    have hsamples : trainSamples (d :: ds) = d + 1 + trainSamples ds := rfl
    have hlength : (d :: ds).length = ds.length + 1 := rfl
    obtain ⟨hd0, hrest⟩ := List.forall_mem_cons.1 hd
    have hhigh := h.replicate_sampleHigh d (by omega) (by omega)
    rw [Nat.zero_add] at hhigh
    have hlow := hhigh.sampleLow (by omega) hd0 (by omega) (hbit 0 (by omega))
    have htail := ih hlow hrest (by omega) (by omega) fun i hi => by
      rw [Nat.add_right_comm]
      exact hbit (i + 1) (by omega)
    have htrain : s.applyAll (pulseTrain (d :: ds)) =
        ((s.applyAll (List.replicate d .sampleHigh)).apply .sampleLow).applyAll (pulseTrain ds) :=
      State.applyAll_append s _ _
    rw [htrain, hsamples, hlength]
    convert htail using 1 <;> omega

/-- Settles O32: the bits land one by one, by induction on the train, and forty of them are five whole bytes. -/
theorem fortyDataBitsLandMostSignificantFirst : Obligations.FortyDataBitsLandMostSignificantFirst := by
  intro s ds hr hp hb hhigh hlength hd hw
  have hstart : AttemptAt (fun i => decide (30 ≤ ds.getD i 0)) 0 s.wdCount.toNat 0 s :=
    ⟨⟨by rw [hp]; rfl, by rw [hb]; rfl, fun _ hi => absurd hi (by omega), nofun⟩, hr, rfl, by rw [hhigh]; rfl⟩
  have hend := hstart.applyAll_pulseTrain ds hd (by omega) hw fun i _ => by rw [Nat.zero_add]
  rw [hlength] at hend
  obtain ⟨⟨hpulses, hbits, hstored, _⟩, hstate, hsamples, _⟩ := hend
  exact ⟨_, rfl, hstate, BitVec.eq_of_toNat_eq hpulses, BitVec.eq_of_toNat_eq hbits, hsamples,
    fun i hi => hstored i (by omega)⟩

end Sys2Proof.Safety
end

section
/-! PROOFS. The encodings: the opcode table and the decoder (R70, R71, R78), a stimulus program's words and their run-length
list (R80, R81, R82), the codes of the status registers (R75, R76, R77); and the one word each step takes (R70, R100). -/

/-! The opcode table and the decoder. -/

namespace Sys2Proof

/-! Each row of R71 as a condition on the ports: the ports of higher priority are 0, and its own are as the row says. -/

theorem selects_reset (w : ControlWord) :
    OpcodeRow.selects ⟨0b1000#4, 0b1000#4, .reset⟩ w = ControlWord.rst w := by
  revert w; decide

theorem selects_start (w : ControlWord) :
    OpcodeRow.selects ⟨0b1100#4, 0b0100#4, .start⟩ w = (!ControlWord.rst w && ControlWord.start w) := by
  revert w; decide

theorem selects_sampleHigh (w : ControlWord) :
    OpcodeRow.selects ⟨0b1111#4, 0b0011#4, .sampleHigh⟩ w =
      (!ControlWord.rst w && !ControlWord.start w && ControlWord.tick w && ControlWord.din w) := by
  revert w; decide

theorem selects_sampleLow (w : ControlWord) :
    OpcodeRow.selects ⟨0b1111#4, 0b0010#4, .sampleLow⟩ w =
      (!ControlWord.rst w && !ControlWord.start w && ControlWord.tick w && !ControlWord.din w) := by
  revert w; decide

theorem selects_nop (w : ControlWord) :
    OpcodeRow.selects ⟨0b1110#4, 0b0000#4, .nop⟩ w =
      (!ControlWord.rst w && !ControlWord.start w && !ControlWord.tick w) := by
  revert w; decide

/-- The rows' conditions on the ports are the branches of the decoder, so one row selects a word and it is the one the word
decodes to (R71, R100). -/
theorem exists_filter_selects_eq_singleton (w : ControlWord) :
    ∃ r, opcodeRows.filter (fun q => q.selects w) = [r] ∧ decodeWord w = r.instr := by
  simp only [opcodeRows, List.filter, selects_reset, selects_start, selects_sampleHigh, selects_sampleLow, selects_nop,
    decodeWord]
  cases ControlWord.rst w with
  | true => exact ⟨_, rfl, rfl⟩
  | false =>
    cases ControlWord.start w with
    | true => exact ⟨_, rfl, rfl⟩
    | false =>
      cases ControlWord.tick w with
      | false => exact ⟨_, rfl, rfl⟩
      | true => cases ControlWord.din w <;> exact ⟨_, rfl, rfl⟩

/-- Settles O1: the table is R71's literally, and its rows split the words as the decoder's branches do. -/
theorem everyWordSelectsExactlyItsRow : Obligations.EveryWordSelectsExactlyItsRow :=
  ⟨rfl, fun _ _ => rfl, exists_filter_selects_eq_singleton, by decide⟩

/-- Settles O2, by running the decoder on each of the 16 words. -/
theorem writtenWordsDecode : Obligations.WrittenWordsDecode := by
  unfold Obligations.WrittenWordsDecode
  decide

/-- The canonical word of an operation decodes to it (R80). -/
@[simp] theorem decodeWord_encode (i : Instr) : decodeWord (encode i) = i := by cases i <;> rfl

/-- Every control word, laid out in a byte, is read back as its operation, and only its byte is taken. -/
theorem decodeBytes_setWidth_cons (w : ControlWord) (rest : List Byte) :
    decodeBytes (w.setWidth 8 :: rest) = .ok (decodeWord w, rest) := by
  have hports : (w.setWidth 8).toNat < 16 := by simp; omega
  have hword : (w.setWidth 8).setWidth 4 = w := BitVec.setWidth_setWidth_of_le w (by omega)
  show (if _ then _ else _) = _
  rw [if_pos hports, hword]

/-- The opcode table's way to a word ends at the same decoder. -/
theorem decodeTableWord_toNat (nbits : Nat) (w : ControlWord) : decodeTableWord nbits w.toNat = some (decodeWord w) := by
  have hbyte : w.toNat < 256 := by omega
  unfold decodeTableWord
  rw [if_pos hbyte, BitVec.ofNat_toNat, decodeBytes_setWidth_cons]

/-- A byte that sets a bit above the four ports is no control word (R20, R70). -/
theorem decodeBytes_cons_of_ge {b : Byte} (h : 16 ≤ b.toNat) (rest : List Byte) :
    decodeBytes (b :: rest) = .error .bitsAboveThePorts :=
  if_neg (Nat.not_lt.2 h)

/-- Settles O3: canonical words are control words, and those are all read back. -/
theorem encodedOperationDecodesToItself : Obligations.EncodedOperationDecodesToItself := by
  refine ⟨fun i rest => ?_, fun i => ?_, fun _ rest h => decodeBytes_cons_of_ge h rest, rfl⟩
  · rw [decodeBytes_setWidth_cons, decodeWord_encode]
  · rw [decodeTableWord_toNat, decodeWord_encode]

end Sys2Proof

/-! A stimulus program's words, and their run-length list. -/

namespace Sys2Proof.Machine

theorem map_decodeWord_programWords (ls : List Stimulus) : (programWords ls).map decodeWord = ls.flatMap expand := by
  induction ls with
  | nil => rfl
  | cons l ls ih =>
    have hline : ((expand l).map encode).map decodeWord = expand l :=
      List.map_map.trans (List.map_id'' decodeWord_encode _)
    rw [programWords, List.map_append, hline, ih, List.flatMap_cons]

/-- A data bit's pulse is the line `BIT1` or `BIT0` (R81). -/
theorem expandBit_eq (c : Bool) : expandBit c = if c = true then expand .bit1 else expand .bit0 := by cases c <;> rfl

/-- A byte is its eight bits, the most significant first (R81). -/
theorem expandByte_eq_flatMap (v : Byte) :
    expandByte v = [7, 6, 5, 4, 3, 2, 1, 0].flatMap (fun i => expandBit (v.getLsbD i)) := by
  simp [expandByte]

/-- Settles O4: the words by induction on the lines, and the table of R81 line by line. -/
theorem programWordsDecodeToTheExpansions : Obligations.ProgramWordsDecodeToTheExpansions := by
  refine ⟨map_decodeWord_programWords, fun _ => rfl, fun _ => ⟨rfl, rfl, rfl⟩, fun _ _ => rfl, rfl, rfl, fun v => ?_,
    fun _ _ _ _ _ => ?_, List.append_assoc _ _ _, rfl⟩
  · simp only [← expandBit_eq]
    exact expandByte_eq_flatMap v
  · simp [expand]

/-- One more word in front makes the first run longer, if that run is of the same word, or else begins a run (R82). -/
theorem consRun_cases (w : ControlWord) (rs : List (Nat × ControlWord)) :
    (∃ n rest, rs = (n, w) :: rest ∧ consRun w rs = (n + 1, w) :: rest) ∨
    ((∀ r ∈ rs.head?, w ≠ r.2) ∧ consRun w rs = (1, w) :: rs) := by
  cases rs with
  | nil => exact .inr ⟨nofun, rfl⟩
  | cons r rest =>
    obtain ⟨n, v⟩ := r
    by_cases hv : v = w
    · subst hv
      exact .inl ⟨n, rest, rfl, if_pos rfl⟩
    · exact .inr ⟨by simpa using Ne.symm hv, if_neg hv⟩

theorem ofRunLength_consRun (w : ControlWord) (rs : List (Nat × ControlWord)) :
    ofRunLength (consRun w rs) = w :: ofRunLength rs := by
  rcases consRun_cases w rs with ⟨n, rest, rfl, h⟩ | ⟨_, h⟩ <;> rw [h]
  · simp [ofRunLength, List.replicate_succ]
  · simp [ofRunLength]

/-- A run-length list in reduced form: no empty run, and neighbouring runs of different words (R82). -/
def ReducedRuns (rs : List (Nat × ControlWord)) : Prop :=
  (∀ r ∈ rs, 1 ≤ r.1) ∧ rs.IsChain (fun a b => a.2 ≠ b.2)

/-- A word in front keeps the form: a run that grows keeps its word, and a new run differs from the first (R82). -/
theorem ReducedRuns.consRun {rs : List (Nat × ControlWord)} (h : ReducedRuns rs) (w : ControlWord) :
    ReducedRuns (consRun w rs) := by
  obtain ⟨hcounts, hneighbours⟩ := h
  rcases consRun_cases w rs with ⟨n, rest, rfl, heq⟩ | ⟨hfirst, heq⟩ <;> rw [heq]
  · have hrest := (List.forall_mem_cons.1 hcounts).2
    exact ⟨List.forall_mem_cons.2 ⟨Nat.le_add_left 1 n, hrest⟩, List.isChain_cons.2 (List.isChain_cons.1 hneighbours)⟩
  · exact ⟨List.forall_mem_cons.2 ⟨Nat.le_refl 1, hcounts⟩, List.isChain_cons.2 ⟨hfirst, hneighbours⟩⟩

theorem ofRunLength_runLength (ws : List ControlWord) : ofRunLength (runLength ws) = ws := by
  induction ws with
  | nil => rfl
  | cons w ws ih => exact (ofRunLength_consRun w _).trans (congrArg (w :: ·) ih)

theorem reducedRuns_runLength (ws : List ControlWord) : ReducedRuns (runLength ws) := by
  induction ws with
  | nil => exact ⟨nofun, List.isChain_nil⟩
  | cons w ws ih => exact ih.consRun w

/-- Settles O5: both halves by induction on the words. -/
theorem runLengthListGivesTheWordsBack : Obligations.RunLengthListGivesTheWordsBack := fun ws =>
  ⟨ofRunLength_runLength ws, reducedRuns_runLength ws⟩

/-! The word a step takes. -/

theorem State.controlWord_nil {wW hW : Nat} {s : State wW hW} (h : s.stimulus = []) :
    s.controlWord = Config.freeControlWord s.freeWords := by simp [State.controlWord, h]

/-- Settles O6: what the host's input gives, pending or free, is what the step decodes. -/
theorem stepRunsTheDecodedWord : Obligations.StepRunsTheDecodedWord := by
  refine ⟨fun s w ws h => ?_, fun s h => ?_⟩ <;> unfold step
  · rw [State.controlWord_cons h, State.takeWord_cons h]
  · rw [State.controlWord_nil h, State.takeWord_nil h]

/-- Taking a cycle's word removes the next pending one, or counts a free one (R70, log entry 1). -/
theorem State.takeWord_input {wW hW : Nat} (s : State wW hW) :
    s.takeWord.stimulus = s.stimulus.tail ∧
      s.takeWord.freeWords = if s.stimulus = [] then s.freeWords + 1 else s.freeWords := by
  cases hs : s.stimulus with
  | nil =>
    rw [State.takeWord_nil hs]
    exact ⟨hs, rfl⟩
  | cons w ws =>
    rw [State.takeWord_cons hs]
    exact ⟨rfl, rfl⟩

/-- Settles O7: only taking the word touches the host's input, since no operation does. -/
theorem everyStepTakesOneWordAndGoesOn : Obligations.EveryStepTakesOneWordAndGoesOn := by
  intro s
  obtain ⟨hstimulus, hfree⟩ := s.takeWord_input
  obtain ⟨hkeepsStimulus, hkeepsFree⟩ := State.apply_input (decodeWord s.controlWord) s.takeWord
  exact ⟨_, step_eq s, hkeepsStimulus.trans hstimulus, hkeepsFree.trans hfree⟩

/-! The codes of the status registers. -/

/-- Settles O36: the codes are the tables', and reading back inverts them and refuses the codes outside them. -/
theorem statusCodesReadBack : Obligations.StatusCodesReadBack :=
  ⟨⟨rfl, rfl, rfl⟩, ⟨rfl, rfl, rfl, rfl⟩, ⟨rfl, rfl, rfl, rfl, rfl⟩, stateOfCode_stateCode, resultOfCode_resultCode,
    causeOfCode_causeCode, rfl, rfl, rfl, rfl⟩

end Sys2Proof.Machine
end

section
/-! PROOFS. The control words and the state machine: the port priority (R100), the state transition table (R101), RESET
(R102), START (R103, R104), NOP (R105), and a sample outside an attempt (R106). -/

/-! The ports of a word, and the operation they give. -/

namespace Sys2Proof

@[simp] theorem ControlWord.rst_ofPorts (rst start tick din : Bool) :
    ControlWord.rst (ControlWord.ofPorts rst start tick din) = rst := by
  revert rst start tick din; decide

@[simp] theorem ControlWord.start_ofPorts (rst start tick din : Bool) :
    ControlWord.start (ControlWord.ofPorts rst start tick din) = start := by
  revert rst start tick din; decide

@[simp] theorem ControlWord.tick_ofPorts (rst start tick din : Bool) :
    ControlWord.tick (ControlWord.ofPorts rst start tick din) = tick := by
  revert rst start tick din; decide

@[simp] theorem ControlWord.din_ofPorts (rst start tick din : Bool) :
    ControlWord.din (ControlWord.ofPorts rst start tick din) = din := by
  revert rst start tick din; decide

/-- The priority of the ports: `rst`, then `start`, then `tick` with the level of `din` (R71, R100). -/
theorem decodeWord_ofPorts (rst start tick din : Bool) :
    decodeWord (ControlWord.ofPorts rst start tick din) =
      if rst then .reset else if start then .start
      else if tick then (if din then .sampleHigh else .sampleLow) else .nop := by
  simp only [decodeWord, ControlWord.rst_ofPorts, ControlWord.start_ofPorts, ControlWord.tick_ofPorts,
    ControlWord.din_ofPorts]

end Sys2Proof

namespace Sys2Proof.Machine

variable {wW hW : Nat}

/-- A step whose ports are given runs the operation of highest priority (R100). -/
theorem step_ofPorts {s : State} {rst start tick din : Bool} {ws : List ControlWord}
    (h : s.stimulus = ControlWord.ofPorts rst start tick din :: ws) :
    step s = exec (if rst then .reset else if start then .start
      else if tick then (if din then .sampleHigh else .sampleLow) else .nop) { s with stimulus := ws } := by
  rw [stepRunsTheDecodedWord.1 s _ ws h, decodeWord_ofPorts]

/-! What an operation does in RUNNING and outside it. -/

theorem State.startWord_of_running {s : State wW hW} (h : s.state = .running) : s.startWord = s := if_pos h

theorem State.startWord_of_not_running {s : State wW hW} (h : s.state ≠ .running) :
    s.startWord = s.clearRegisters .running := if_neg h

theorem State.sampleWord_of_running {s : State wW hW} (h : s.state = .running) (P : Params) (l : Level) :
    s.sampleWord P l = s.sample P l := if_pos h

theorem State.sampleWord_of_not_running {s : State wW hW} (h : s.state ≠ .running) (P : Params) (l : Level) :
    s.sampleWord P l = s := if_neg h

/-- A sample of a running attempt leaves it running or ends it with a cause (R101). -/
theorem State.sampleWord_running_or_finish {s : State wW hW} (h : s.state = .running) (P : Params) (l : Level) :
    (s.sampleWord P l).state = .running ∨
      ∃ (u : State wW hW) (e : EndCause), e ≠ .none ∧ s.sampleWord P l = u.finish e := by
  rw [State.sampleWord_of_running h]
  obtain ⟨u, e, hgoesOn | ⟨he, hends⟩, hstate, -⟩ := s.sample_fields P l
  · exact .inl (by rw [hgoesOn, hstate, h])
  · exact .inr ⟨u, e, he, hends⟩

/-- RUNNING is left only by RESET or by an attempt's end with a cause (R101, R104). -/
theorem State.applyFor_running_or_finish {s : State wW hW} (h : s.state = .running) (P : Params) {i : Instr}
    (hreset : i ≠ .reset) :
    (s.applyFor P i).state = .running ∨
      ∃ (u : State wW hW) (e : EndCause), e ≠ .none ∧ s.applyFor P i = u.finish e := by
  cases i with
  | reset => exact absurd rfl hreset
  | start => exact .inl ((congrArg State.state (State.startWord_of_running h)).trans h)
  | sampleHigh => exact State.sampleWord_running_or_finish h P .high
  | sampleLow => exact State.sampleWord_running_or_finish h P .low
  | nop => exact .inl h

/-- Outside RUNNING only RESET and START do anything (R101, R104, R106). -/
theorem State.applyFor_of_not_running {s : State wW hW} (h : s.state ≠ .running) (P : Params) {i : Instr}
    (hreset : i ≠ .reset) (hstart : i ≠ .start) : s.applyFor P i = s := by
  cases i with
  | reset => exact absurd rfl hreset
  | start => exact absurd rfl hstart
  | sampleHigh => exact State.sampleWord_of_not_running h P .high
  | sampleLow => exact State.sampleWord_of_not_running h P .low
  | nop => rfl

/-! The same, as `exec` answers it. -/

theorem exec_nop (s : State) : exec .nop s = .next s := exec_eq .nop s

theorem exec_start_of_running {s : State} (h : s.state = .running) : exec .start s = .next s :=
  exec_next_iff.2 (State.startWord_of_running h)

theorem exec_start_of_not_running {s : State} (h : s.state ≠ .running) :
    exec .start s = .next (s.clearRegisters .running) :=
  exec_next_iff.2 (State.startWord_of_not_running h)

theorem exec_of_not_running {s : State} (h : s.state ≠ .running) {i : Instr} (hreset : i ≠ .reset)
    (hstart : i ≠ .start) : exec i s = .next s :=
  exec_next_iff.2 (State.applyFor_of_not_running h Config.params hreset hstart)

/-! What a block with every register clear shows. -/

theorem State.clearRegisters_read (s : State wW hW) (r : RunState) (a : Nat) : (s.clearRegisters r).frame.read a = 0 := rfl

/-- A clear block's flags: `busy` and `done` follow `state`, and no flag of the Frame is set; a zero checksum is not accepted
(R102, R103, R161). -/
theorem State.clearRegisters_flags (s : State wW hW) (r : RunState) :
    (s.clearRegisters r).outputs.busy = (r == .running) ∧ (s.clearRegisters r).outputs.done = (r == .done) ∧
      (s.clearRegisters r).outputs.checksumOk = false ∧ (s.clearRegisters r).outputs.frameComplete = false ∧
      (s.clearRegisters r).outputs.tempNeg = false :=
  ⟨rfl, rfl, rfl, rfl, rfl⟩

/-! The statements. -/

/-- Settles O10: the cells of RESET, START and NOP, and a sample's two outside and inside an attempt. -/
theorem stateMovesAsTheTableSays : Obligations.StateMovesAsTheTableSays := by
  intro s
  refine ⟨⟨_, exec_eq .reset s, rfl⟩, exec_start_of_running, fun h => ⟨_, exec_start_of_not_running h, rfl⟩,
    fun i hi => ?_, exec_nop s⟩
  have hreset : i ≠ .reset := by rcases hi with rfl | rfl <;> decide
  have hstart : i ≠ .start := by rcases hi with rfl | rfl <;> decide
  refine ⟨fun h => exec_of_not_running h hreset hstart, fun h => ⟨_, exec_eq i s, ?_⟩⟩
  refine (State.applyFor_running_or_finish h Config.params hreset).imp_right fun ⟨u, e, he, hends⟩ => ?_
  exact ⟨(congrArg State.state hends).trans (u.finish_state e), u, e, he, hends⟩

/-- Settles O15: START is ignored in RUNNING, RUNNING is left in two ways, and DONE holds under the other operations. -/
theorem attemptIsNotCancelledByStart : Obligations.AttemptIsNotCancelledByStart := by
  intro s
  refine ⟨fun hr tick din ws hws => ?_, fun hr i t hexec hleft => ?_, fun hd i hreset hstart => ?_⟩
  · exact (step_ofPorts hws).trans (exec_start_of_running hr)
  · obtain rfl := exec_next_iff.1 hexec
    by_cases hreset : i = .reset
    · exact .inl hreset
    · exact .inr ((State.applyFor_running_or_finish hr Config.params hreset).resolve_left hleft)
  · exact exec_of_not_running (by simp [hd]) hreset hstart

/-- Settles O17, by induction on the operations: a NOP in front leaves the state the rest starts from. -/
theorem nopsBetweenSamplesHaveNoEffect : Obligations.NopsBetweenSamplesHaveNoEffect := by
  intro is
  induction is with
  | nil => exact fun _ => rfl
  | cons i is ih =>
    intro s
    by_cases hi : i = .nop
    · subst hi
      exact ih s
    · rw [List.filter_cons_of_pos (by simpa using hi)]
      exact ih (s.apply i)

/-- Settles O8: port by port, in the order of R100's pseudocode. -/
theorem stepFollowsThePortPriority : Obligations.StepFollowsThePortPriority := by
  intro s rst start tick din ws hws
  rw [step_ofPorts hws]
  cases rst with
  | true => rfl
  | false =>
    cases start with
    | true => rfl
    | false =>
      cases tick with
      | false => rfl
      | true =>
        have hsample : exec (if din then .sampleHigh else .sampleLow) { s with stimulus := ws } =
            .next ({ s with stimulus := ws }.sampleWord Config.params (if din then .high else .low)) := by
          cases din <;> rfl
        -- R100 asks for "not RUNNING" first, `sampleWord` for RUNNING: the same test with its branches exchanged.
        exact hsample.trans (congrArg Host.Outcome.next (ite_not (s.state = .running) _ _).symm)

/-- Settles O11: RESET answers the clear block in IDLE, and `rst` has the highest priority. -/
theorem resetClearsEveryRegister : Obligations.ResetClearsEveryRegister := by
  intro s
  refine ⟨exec_eq .reset s, fun t hexec => ?_, fun _ _ _ _ hws => step_ofPorts hws⟩
  obtain rfl := exec_next_iff.1 hexec
  exact ⟨fun k => s.clearRegisters_read .idle k.val, s.clearRegisters_flags .idle⟩

/-- Settles O14: outside RUNNING, START answers the clear block in RUNNING. -/
theorem startBeginsAFreshAttempt : Obligations.StartBeginsAFreshAttempt := by
  intro s
  refine ⟨exec_start_of_running, exec_start_of_not_running, fun hr t hexec => ?_, fun _ _ _ hws => step_ofPorts hws⟩
  obtain rfl := Host.Outcome.next.inj ((exec_start_of_not_running hr).symm.trans hexec)
  exact ⟨fun k => s.clearRegisters_read .running k.val, s.clearRegisters_flags .running⟩

/-- Settles O16: with `rst`, `start` and `tick` 0 the operation is NOP, whatever `din` is. -/
theorem nopChangesNothing : Obligations.NopChangesNothing := fun s =>
  ⟨exec_nop s, fun _ _ hws => (step_ofPorts hws).trans (exec_nop _)⟩

/-- Settles O18: a sample is neither RESET nor START. -/
theorem samplesOutsideAnAttemptDoNothing : Obligations.SamplesOutsideAnAttemptDoNothing := fun _ h =>
  ⟨exec_of_not_running h (by decide) (by decide), exec_of_not_running h (by decide) (by decide)⟩

/-- Settles O47: no operation touches the host's input; a word that is ignored leaves the state, and one that is not clears
it. -/
theorem controlWordsFrame : Obligations.ControlWordsFrame := by
  intro s t i _ hexec
  obtain ⟨hstimulus, hfree⟩ := State.apply_input i s
  obtain rfl := exec_next_iff.1 hexec
  refine ⟨hstimulus, hfree, fun hignored => ?_, fun hclears => ?_⟩
  · have hsame : s.apply i = s := by
      rcases hignored with rfl | ⟨rfl, hr⟩
      · rfl
      · exact State.startWord_of_running hr
    exact ⟨hsame, fun a => by rw [hsame]⟩
  · rcases hclears with rfl | ⟨rfl, hr⟩
    · exact s.clearRegisters_read .idle
    · rw [exec_next_iff.1 (exec_start_of_not_running hr)]
      exact s.clearRegisters_read .running

end Sys2Proof.Machine
end

section
/-! PROOFS. The pulse sampler: what a sample writes and what it leaves unchanged (R23, R120 to R125, R130), the order of one
sample's endings (R127, R128), and the budget of an attempt (R129). -/

/-! What a sample writes. -/

namespace Sys2Proof.Machine

variable {wW hW : Nat}

/-- The watchdog test writes the three registers of an attempt's end, and nothing else (R126, R204). -/
theorem State.watchdogTest_fields (P : Params) (s : State wW hW) :
    ∃ r v e, s.watchdogTest P = { s with state := r, result := v, endCause := e } := by
  rcases s.watchdogTest_cases P with ⟨_, h⟩ | ⟨_, h⟩
  · exact ⟨.done, s.verdict .watchdog, .watchdog, h⟩
  · exact ⟨s.state, s.result, s.endCause, h⟩

/-- The HIGH branch counts the run, and else writes the registers of an attempt's end only (R121). -/
theorem State.sampleHigh_fields (P : Params) (s : State wW hW) :
    ∃ r v e, s.sampleHigh P = { s.countHigh with state := r, result := v, endCause := e } := by
  rcases s.sampleHigh_cases P with ⟨_, h⟩ | ⟨_, h⟩
  · exact ⟨.done, s.countHigh.verdict .abort, .abort, h⟩
  · rw [h]
    exact s.countHigh.watchdogTest_fields P

/-- With no open run the LOW branch writes the registers of an attempt's end only (R130). -/
theorem State.sampleLow_fields_noRun (P : Params) {s : State wW hW} (h0 : s.highCount.toNat = 0) :
    ∃ r v e, s.sampleLow P = { s with state := r, result := v, endCause := e } := by
  rcases s.sampleLow_cases P with ⟨_, h⟩ | ⟨hopen, _⟩
  · rw [h]
    exact s.watchdogTest_fields P
  · exact absurd h0 hopen

/-- With an open run the LOW branch closes it and counts one pulse; the pulse writes the accumulator and the Frame (R122,
R123). -/
theorem State.sampleLow_fields_run (P : Params) {s : State wW hW} (h0 : s.highCount.toNat ≠ 0) :
    ∃ r v e a b m, s.sampleLow P =
      { s.clearRun.countPulse with state := r, result := v, endCause := e, acc := a, bits := b, frame := m } := by
  obtain ⟨a, b, m, hpulse⟩ := s.clearRun.countPulse.countedPulse_fields P s.highCount.toNat
  rcases s.sampleLow_cases P with ⟨hclosed, _⟩ | ⟨_, ⟨_, h⟩ | ⟨_, h⟩⟩
  · exact absurd hclosed h0
  · obtain ⟨r, v, e, htest⟩ := (s.clearRun.pulse P s.highCount.toNat).1.watchdogTest_fields P
    exact ⟨r, v, e, a, b, m, by rw [h, htest, State.pulse, hpulse]⟩
  · exact ⟨.done, _, _, a, b, m, by rw [h, State.pulse, hpulse]; rfl⟩

/-- Every sample is counted, whatever else it does (R124). -/
theorem State.sample_wdCount (P : Params) (l : Level) (s : State wW hW) : (s.sample P l).wdCount = countUp s.wdCount := by
  obtain ⟨u, e, hgoesOn | ⟨_, hends⟩, _, _, _, _, _, hwd⟩ := s.sample_fields P l
  · rw [hgoesOn, hwd]
  · rw [hends, State.finish_wdCount, hwd]

/-- A sample word after which the attempt goes on leaves the verdict and the cause (R204). -/
theorem State.sampleWord_verdict_of_running {P : Params} {l : Level} {s : State wW hW}
    (h : (s.sampleWord P l).state = .running) :
    (s.sampleWord P l).result = s.result ∧ (s.sampleWord P l).endCause = s.endCause := by
  rcases s.sampleWord_cases P l with ⟨_, heq⟩ | ⟨_, heq⟩ <;> rw [heq] at h ⊢
  · obtain ⟨u, e, hgoesOn | ⟨_, hends⟩, _, hresult, hcause, _⟩ := s.sample_fields P l
    · rw [hgoesOn]
      exact ⟨hresult, hcause⟩
    · rw [hends] at h
      cases h
  · exact ⟨rfl, rfl⟩

/-- SAMPLE_HIGH in any state leaves the pulse count and the accumulator (R121). -/
theorem State.sampleWord_high_unchanged (P : Params) (s : State wW hW) :
    (s.sampleWord P .high).pulseIndex = s.pulseIndex ∧ (s.sampleWord P .high).acc = s.acc ∧
      (s.sampleWord P .high).bits = s.bits ∧ (s.sampleWord P .high).frame = s.frame := by
  rcases s.sampleWord_cases P .high with ⟨_, heq⟩ | ⟨_, heq⟩ <;> rw [heq]
  · obtain ⟨r, v, e, hfields⟩ := s.countSample.sampleHigh_fields P
    rw [State.sample, hfields]
    exact ⟨rfl, rfl, rfl, rfl⟩
  · exact ⟨rfl, rfl, rfl, rfl⟩

/-- SAMPLE_LOW with no open run leaves the pulse registers, in any state (R130). -/
theorem State.sampleWord_low_noRun_unchanged (P : Params) {s : State wW hW} (h0 : s.highCount = 0) :
    (s.sampleWord P .low).pulseIndex = s.pulseIndex ∧ (s.sampleWord P .low).acc = s.acc ∧
      (s.sampleWord P .low).bits = s.bits ∧ (s.sampleWord P .low).highCount = 0 := by
  rcases s.sampleWord_cases P .low with ⟨_, heq⟩ | ⟨_, heq⟩ <;> rw [heq]
  · obtain ⟨r, v, e, hfields⟩ := State.sampleLow_fields_noRun P (s := s.countSample) (by simp [h0])
    rw [State.sample, hfields]
    exact ⟨rfl, rfl, rfl, h0⟩
  · exact ⟨rfl, rfl, rfl, h0⟩

theorem State.highCount_toNat_ne_zero {s : State wW hW} (h : s.highCount ≠ 0) : s.highCount.toNat ≠ 0 :=
  fun h0 => h (BitVec.eq_of_toNat_eq h0)

/-- SAMPLE_LOW in RUNNING with an open run counts one pulse and closes the run (R123, R141). -/
theorem State.sampleWord_low_run {P : Params} {s : State wW hW} (hr : s.state = .running) (h0 : s.highCount ≠ 0) :
    (s.sampleWord P .low).pulseIndex = countUp s.pulseIndex ∧ (s.sampleWord P .low).highCount = 0 := by
  have hopen : s.countSample.highCount.toNat ≠ 0 := State.highCount_toNat_ne_zero h0
  obtain ⟨r, v, e, a, b, m, hfields⟩ := State.sampleLow_fields_run P hopen
  rw [State.sampleWord_of_running hr, State.sample, hfields]
  exact ⟨rfl, rfl⟩

/-! The frames of the two sample words, and what they count. -/

/-- Settles O45: in RUNNING and outside it. -/
theorem sampleHighFrame : Obligations.SampleHighFrame := by
  intro s t hexec
  obtain rfl := exec_next_iff.1 hexec
  obtain ⟨hstimulus, hfree⟩ := State.apply_input .sampleHigh s
  obtain ⟨hpulse, hacc, hbits, hframe⟩ := s.sampleWord_high_unchanged Config.params
  exact ⟨hpulse, hacc, hbits, fun a => congrArg (Memory.read · a) hframe, hframe, hstimulus, hfree,
    State.sampleWord_verdict_of_running⟩

/-- Settles O46: the one store goes to `lowStoreIndex`, and a write leaves every other byte. -/
theorem sampleLowFrame : Obligations.SampleLowFrame := by
  intro s t hexec
  obtain rfl := exec_next_iff.1 hexec
  obtain ⟨hstimulus, hfree⟩ := State.apply_input .sampleLow s
  refine ⟨fun a ha => ?_, State.sampleWord_low_noRun_unchanged Config.params, hstimulus, hfree,
    State.sampleWord_verdict_of_running⟩
  show (s.sampleWord Config.params .low).frame.read a = s.frame.read a
  rcases s.sampleWord_low_frame_cases Config.params with heq | ⟨k, hk, heq⟩ <;> rw [heq]
  exact Memory.read_write_other _ _ (ha k hk)

/-- Settles O21: an open run is counted as a pulse and closed; with none, and by a HIGH sample, no pulse is counted. -/
theorem pulseIsEmittedExactlyWhenARunEnds : Obligations.PulseIsEmittedExactlyWhenARunEnds := by
  intro s t hr hp
  refine ⟨fun hexec hopen => ?_, fun hexec hclosed => ?_, fun hexec => ?_, fun hinv hopen => ?_⟩
  · obtain rfl := exec_next_iff.1 hexec
    obtain ⟨hpulse, hhigh⟩ := State.sampleWord_low_run (P := Config.params) hr hopen
    exact ⟨hpulse.trans (countUp_eq (by omega)), hhigh⟩
  · obtain ⟨_, hnoRun, _⟩ := sampleLowFrame s t hexec
    obtain ⟨hpulse, _, _, hhigh⟩ := hnoRun hclosed
    exact ⟨hpulse, hhigh⟩
  · exact (sampleHighFrame s t hexec).1
  · obtain ⟨_, hhigh, _⟩ := hinv
    exact ⟨Nat.one_le_iff_ne_zero.2 (State.highCount_toNat_ne_zero hopen), Nat.le_of_lt_succ hhigh⟩

/-- Settles O22: in RUNNING by `sample`; the other operations leave the count or clear it. -/
theorem everySampleConsumesOneTick : Obligations.EverySampleConsumesOneTick := by
  intro s i hw
  have hsample (l : Level) (hr : s.state = .running) :
      (s.sampleWord Config.params l).wdCount.toNat = s.wdCount.toNat + 1 := by
    rw [State.sampleWord_of_running hr, State.sample_wdCount, countUp_toNat (by omega)]
  refine ⟨fun hr hi => ⟨_, exec_eq i s, ?_⟩, fun hi => ⟨_, exec_eq i s, ?_⟩⟩
  · rcases hi with rfl | rfl
    · exact hsample .high hr
    · exact hsample .low hr
  · cases i with
    | reset => exact .inr ⟨.inl rfl, rfl⟩
    | start =>
      rcases s.startWord_cases with ⟨_, heq⟩ | ⟨_, heq⟩
      · exact .inl (congrArg State.wdCount heq)
      · exact .inr ⟨.inr rfl, congrArg State.wdCount heq⟩
    | sampleHigh => exact .inl (congrArg State.wdCount (State.sampleWord_of_not_running (by simpa using hi) _ .high))
    | sampleLow => exact .inl (congrArg State.wdCount (State.sampleWord_of_not_running (by simpa using hi) _ .low))
    | nop => exact .inl rfl

end Sys2Proof.Machine

/-! One sample, on this hardware. -/

namespace Sys2Proof.Safety

open Sys2Proof.Machine

theorem withWatchdog_of_eq {u : State} (h : u.wdCount = 50000#16) : withWatchdog u = u.finish .watchdog := if_pos h

theorem withWatchdog_of_ne {u : State} (h : u.wdCount ≠ 50000#16) : withWatchdog u = u := if_neg h

/-- Settles O19: `finish` and `withWatchdog` are the record updates of the statement. -/
theorem sampleHighCountsAndMayEndTheAttempt : Obligations.SampleHighCountsAndMayEndTheAttempt := fun _ hr hw hh =>
  exec_next_iff.2 (State.apply_sampleHigh hr hw hh)

/-- Settles O20: what is left is the watchdog rule on the counted sample, whose verdict does not read `wd_count`. -/
theorem lowSampleInALowRunOnlyCounts : Obligations.LowSampleInALowRunOnlyCounts := by
  intro s hr hh hw
  have hlow := State.apply_sampleLow_noRun hr hw hh
  exact ⟨fun hne => exec_next_iff.2 (hlow.trans (withWatchdog_of_ne hne)),
    fun hlimit => exec_next_iff.2 (hlow.trans (withWatchdog_of_eq hlimit))⟩

/-- Settles O24: below the abort length the HIGH sample goes on to the watchdog rule. -/
theorem watchdogLeavesTheOpenRunUncounted : Obligations.WatchdogLeavesTheOpenRunUncounted := by
  intro s hr hw hh
  have hlimit : s.wdCount + 1 = 50000#16 := by rw [hw]; rfl
  have habort : s.highCount + 1 ≠ 200#8 := by bv_omega
  rw [sampleHighCountsAndMayEndTheAttempt s hr (by rw [hw]; decide) (by omega), if_neg habort, if_pos hlimit]
  simp only [hlimit]
  rfl

end Sys2Proof.Safety

/-! The order of one sample's endings. -/

namespace Sys2Proof.Machine

variable {wW hW : Nat} {P : Params} {s : State wW hW}

/-- A data pulse of no class leaves every register, and answers with the event (R145). -/
theorem State.countedPulse_unclassifiable {d : Nat} (h2 : 2 < s.pulseIndex.toNat) (h42 : s.pulseIndex.toNat ≤ 42)
    (hc : classify P d = .unclassifiable) : s.countedPulse P d = (s, .unclassifiable) := by
  rcases s.countedPulse_cases P d with ⟨hp, _⟩ | ⟨hp, _⟩ | ⟨hp, _⟩ | ⟨_, _, ⟨_, heq⟩ | ⟨h, _⟩ | ⟨h, _⟩⟩
  · omega
  · omega
  · omega
  · exact heq
  · cases hc.symm.trans h
  · cases hc.symm.trans h

/-- A pulse after the fortieth data bit leaves every register, and answers with the event (R142). -/
theorem State.countedPulse_overflow (h42 : 42 < s.pulseIndex.toNat) (P : Params) (d : Nat) :
    s.countedPulse P d = (s, .overflow) := by
  rcases s.countedPulse_cases P d with ⟨hp, _⟩ | ⟨hp, _⟩ | ⟨_, heq⟩ | ⟨_, hp, _⟩
  · omega
  · omega
  · exact heq
  · omega

/-- The eighth bit of a byte stores the whole accumulator, where there is an index (R147). -/
theorem State.accumulate_store {k : Fin 5} (h8 : countUp s.bits = 8) (hk : byteIndex s.pulseIndex = some k) (c : Bool) :
    s.accumulate c = ((s.shiftIn c).storeFrame k (s.shiftIn c).acc).clearAccumulator := by
  rcases s.accumulate_cases c with ⟨_, heq⟩ | ⟨h, _⟩
  · rcases (s.shiftIn c).byteStore_cases with ⟨hnone, _⟩ | ⟨j, hj, hstore⟩
    · cases hk.symm.trans hnone
    · obtain rfl : k = j := Option.some.inj (hk.symm.trans hj)
      exact heq.trans hstore
  · exact absurd h8 h

/-- At the watchdog's end the verdict of a complete Frame is its checksum's (R166). -/
theorem State.finish_watchdog_result_of_complete (h : 42 ≤ s.pulseIndex.toNat) :
    (s.finish .watchdog).result = if checksumOk s.frame then .valid else .invalid := by
  rw [State.finish_result, State.verdict, if_neg (by simp), if_pos (frameComplete_iff.2 h)]

/-- A HIGH sample that reaches the abort length ends the attempt, whatever the watchdog would do (R125, R127). -/
theorem State.sampleWord_high_abort (hr : s.state = .running) (h : (countUp s.highCount).toNat = P.pulseAbortLength) :
    s.sampleWord P .high = s.countSample.countHigh.finish .abort :=
  (State.sampleWord_of_running hr P .high).trans (if_pos h)

/-- A LOW sample whose pulse answers with an event ends the attempt with it, whatever the watchdog would do (R127). -/
theorem State.sampleWord_low_event {u : State wW hW} {e : EndCause} (hr : s.state = .running)
    (hopen : s.highCount.toNat ≠ 0) (he : e ≠ .none)
    (hpulse : s.countSample.clearRun.countPulse.countedPulse P s.highCount.toNat = (u, e)) :
    s.sampleWord P .low = u.finish e := by
  rw [State.sampleWord_of_running hr]
  show s.countSample.sampleLow P = _
  rcases s.countSample.sampleLow_cases P with ⟨h, _⟩ | ⟨_, ⟨hnone, _⟩ | ⟨_, heq⟩⟩
  · exact absurd h hopen
  · exact absurd ((congrArg Prod.snd hpulse).symm.trans hnone) he
  · exact heq.trans (congrArg (fun r => r.1.finish r.2) hpulse)

/-- A LOW sample whose pulse answers with none goes on to the watchdog test, after every write of the pulse (R127). -/
theorem State.sampleWord_low_noEvent {u : State wW hW} (hr : s.state = .running) (hopen : s.highCount.toNat ≠ 0)
    (hpulse : s.countSample.clearRun.countPulse.countedPulse P s.highCount.toNat = (u, .none)) :
    s.sampleWord P .low = u.watchdogTest P := by
  rw [State.sampleWord_of_running hr]
  show s.countSample.sampleLow P = _
  rcases s.countSample.sampleLow_cases P with ⟨h, _⟩ | ⟨_, ⟨_, heq⟩ | ⟨hne, _⟩⟩
  · exact absurd h hopen
  · exact heq.trans (congrArg (·.1.watchdogTest P) hpulse)
  · exact absurd (congrArg Prod.snd hpulse) hne

end Sys2Proof.Machine

namespace Sys2Proof.Safety

open Sys2Proof.Machine

theorem classify_params_eq_unclassifiable {d : Nat} (hd : 85 ≤ d) : classify Config.params d = .unclassifiable := by
  rw [classify_params, if_neg (by omega), if_neg (by omega)]

/-- The LOW sample that ends the fortieth data pulse stores the fifth byte, and then tests the watchdog (R127, R147). -/
theorem sampleWord_low_lastByte {s : State} (hr : s.state = .running) (hopen : s.highCount ≠ 0)
    (hd : s.highCount.toNat < 85) (hp : s.pulseIndex = 41#6) (hb : s.bits = 7#4) :
    s.sampleWord Config.params .low =
      State.watchdogTest Config.params
        { s.countSample with highCount := 0, pulseIndex := 42#6, acc := 0, bits := 0,
                             frame := s.frame.write 4 (shifted s.acc s.highCount.toNat) } := by
  have hcount : countUp s.pulseIndex = 42#6 := by rw [hp, countUp_eq (by decide)]; rfl
  have h8 : countUp s.bits = 8 := by rw [hb, countUp_eq (by decide)]; rfl
  set u := s.countSample.clearRun.countPulse
  have hpulses : u.pulseIndex = 42#6 := hcount
  have hindex : byteIndex u.pulseIndex = some 4 := by
    rw [hpulses]
    exact byteIndex_eq (by decide) (by decide)
  have hpulse := State.countedPulse_data (s := u) (by rw [hpulses]; decide) (by rw [hpulses]; decide)
    (classify_params_ne_unclassifiable hd)
  rw [State.accumulate_store (s := u) h8 hindex] at hpulse
  rw [State.sampleWord_low_noEvent hr (State.highCount_toNat_ne_zero hopen) hpulse]
  have hacc : (u.shiftIn (decide (Config.params.bit1Min ≤ s.highCount.toNat))).acc = shifted s.acc s.highCount.toNat :=
    shiftIn_acc_eq s.acc s.highCount.toNat
  rw [hacc, ← hcount]
  rfl

/-- Settles O23: the abort test and the pulse's event come before the watchdog test, the byte store before the verdict. -/
theorem oneSampleReportsInTheStatedOrder : Obligations.OneSampleReportsInTheStatedOrder := by
  intro s hr hw
  have hlimit : countUp s.wdCount = 50000#16 := by rw [hw, countUp_eq (by decide)]; rfl
  refine ⟨fun hh => ?_, fun hd h2 h41 => ?_, fun hopen hp => ?_, fun hopen hd hp hb => ?_⟩
  · have habort : (countUp s.highCount).toNat = 200 := by rw [hh, countUp_toNat (by decide)]; rfl
    exact ⟨_, exec_next_iff.2 (State.sampleWord_high_abort hr habort), hlimit, rfl⟩
  · have hcount : (countUp s.pulseIndex).toNat = s.pulseIndex.toNat + 1 := countUp_toNat (by omega)
    have hpulse := State.countedPulse_unclassifiable (s := s.countSample.clearRun.countPulse)
      (show 2 < (countUp s.pulseIndex).toNat by omega) (show (countUp s.pulseIndex).toNat ≤ 42 by omega)
      (classify_params_eq_unclassifiable hd)
    exact ⟨_, exec_next_iff.2 (State.sampleWord_low_event hr (by omega) (by decide) hpulse), hlimit, rfl⟩
  · have hcount : (countUp s.pulseIndex).toNat = 43 := by rw [hp, countUp_toNat (by decide)]; rfl
    have hpulse := State.countedPulse_overflow (s := s.countSample.clearRun.countPulse)
      (show 42 < (countUp s.pulseIndex).toNat by omega) Config.params s.highCount.toNat
    have hne := State.highCount_toNat_ne_zero hopen
    exact ⟨_, exec_next_iff.2 (State.sampleWord_low_event hr hne (by decide) hpulse), hlimit, rfl⟩
  · have hlow := (sampleWord_low_lastByte hr hopen hd hp hb).trans
      ((State.watchdogTest_params _).trans (withWatchdog_of_eq hlimit))
    refine ⟨_, exec_next_iff.2 hlow, hlimit, rfl, Memory.read_write_same _ _ _, ?_⟩
    exact State.finish_watchdog_result_of_complete (show 42 ≤ (42#6).toNat by decide)

/-! The budget of an attempt. -/

theorem apply_sampleInstr (s : State) (l : Level) : s.apply (sampleInstr l) = s.sampleWord Config.params l := by
  cases l <;> rfl

/-- A list of operations each of which leaves the state leaves it. -/
theorem applyAll_eq_self {s : State} {is : List Instr} (h : ∀ i ∈ is, s.apply i = s) : s.applyAll is = s := by
  induction is with
  | nil => rfl
  | cons i is ih =>
    obtain ⟨hi, his⟩ := List.forall_mem_cons.1 h
    show (s.apply i).applyAll is = s
    rw [hi, ih his]

/-- Samples end an attempt if each of them that leaves it running takes a count `m` one up and still below `limit`: there
are only so many of them. -/
theorem applyAll_samples_done {m : State → Nat} {limit : Nat} {ls : List Level}
    (hstep : ∀ l ∈ ls, ∀ s : State, s.state = .running → m s < limit → (s.sampleWord Config.params l).state = .running →
      m (s.sampleWord Config.params l) = m s + 1 ∧ m (s.sampleWord Config.params l) < limit)
    {s : State} (hr : s.state = .running) (hm : m s < limit) (hlength : limit - m s ≤ ls.length) :
    (s.applyAll (ls.map sampleInstr)).state = .done := by
  induction ls generalizing s with
  | nil =>
    rw [List.length_nil] at hlength
    omega
  | cons l ls ih =>
    rw [List.length_cons] at hlength
    obtain ⟨hl, hls⟩ := List.forall_mem_cons.1 hstep
    show ((s.apply (sampleInstr l)).applyAll (ls.map sampleInstr)).state = .done
    rw [apply_sampleInstr]
    rcases State.sampleWord_running_or_finish hr Config.params l with hruns | ⟨u, e, _, hends⟩
    · obtain ⟨hup, hbelow⟩ := hl s hr hm hruns
      exact ih hls hruns hbelow (by omega)
    · rw [hends, applyAll_eq_self fun i hi => ?_]
      · rfl
      · obtain ⟨l', _, rfl⟩ := List.mem_map.1 hi
        rw [apply_sampleInstr]
        exact State.sampleWord_of_not_running (by simp) _ l'

/-- Sample number 50000 ends the attempt, if nothing in it did so before (R126). -/
theorem sample_done_of_watchdogLimit {wW hW : Nat} {P : Params} {s : State wW hW} (l : Level)
    (h : (countUp s.wdCount).toNat = P.watchdogLimit) : (s.sample P l).state = .done := by
  have htest (u : State wW hW) (hu : u.wdCount = countUp s.wdCount) : (u.watchdogTest P).state = .done :=
    congrArg State.state (if_pos (by rw [hu, h]))
  cases l with
  | high =>
    show (s.countSample.sampleHigh P).state = .done
    rcases s.countSample.sampleHigh_cases P with ⟨_, heq⟩ | ⟨_, heq⟩ <;> rw [heq]
    · rfl
    · exact htest _ rfl
  | low =>
    show (s.countSample.sampleLow P).state = .done
    obtain ⟨a, b, m, hpulse⟩ := s.countSample.clearRun.countPulse.countedPulse_fields P s.highCount.toNat
    rcases s.countSample.sampleLow_cases P with ⟨_, heq⟩ | ⟨_, ⟨_, heq⟩ | ⟨_, heq⟩⟩ <;> rw [heq]
    · exact htest _ rfl
    · exact htest _ (congrArg State.wdCount hpulse)
    · rfl

/-- The samples left in the budget end the attempt, whatever their levels (R129). -/
theorem applyAll_samples_done_of_budget {ls : List Level} {s : State} (hr : s.state = .running)
    (hw : s.wdCount.toNat < 50000) (hlength : 50000 - s.wdCount.toNat ≤ ls.length) :
    (s.applyAll (ls.map sampleInstr)).state = .done := by
  refine applyAll_samples_done (m := fun s => s.wdCount.toNat) (fun l _ s hr hw hruns => ?_) hr hw hlength
  rw [State.sampleWord_of_running hr] at hruns ⊢
  have hcount : (countUp s.wdCount).toNat = s.wdCount.toNat + 1 := countUp_toNat (by omega)
  have hlimit : (countUp s.wdCount).toNat ≠ 50000 := fun h => by
    cases hruns.symm.trans (sample_done_of_watchdogLimit (P := Config.params) l h)
  simp only [State.sample_wdCount]
  omega

/-- A line held HIGH ends the attempt once its run comes to 200 samples (R129). -/
theorem applyAll_replicate_sampleHigh_done {n : Nat} {s : State} (hr : s.state = .running)
    (hh : s.highCount.toNat < 200) (hn : 200 - s.highCount.toNat ≤ n) :
    (s.applyAll (List.replicate n .sampleHigh)).state = .done := by
  have hlevels : List.replicate n Instr.sampleHigh = (List.replicate n Level.high).map sampleInstr := by
    rw [List.map_replicate]
    rfl
  rw [hlevels]
  refine applyAll_samples_done (m := fun s => s.highCount.toNat) (fun l hl s hr hh hruns => ?_) hr hh
    (by rwa [List.length_replicate])
  obtain rfl := List.eq_of_mem_replicate hl
  have hcount : (countUp s.highCount).toNat = s.highCount.toNat + 1 := countUp_toNat (by omega)
  have habort : (countUp s.highCount).toNat ≠ 200 := fun h => by
    rw [State.sampleWord_high_abort hr h] at hruns
    cases hruns
  have hhigh : (s.sampleWord Config.params .high).highCount = countUp s.highCount := by
    obtain ⟨r, v, e, hfields⟩ := s.countSample.sampleHigh_fields Config.params
    rw [State.sampleWord_of_running hr, State.sample, hfields]
    rfl
  simp only [hhigh]
  omega

/-- HIGH samples that reach neither limit keep the attempt running, and make its run longer (R121). -/
theorem applyAll_replicate_sampleHigh_running (k : Nat) {s : State} (hr : s.state = .running)
    (hw : s.wdCount.toNat + k < 50000) (hh : s.highCount.toNat + k < 200) :
    let t := s.applyAll (List.replicate k .sampleHigh)
    t.state = .running ∧ t.wdCount.toNat = s.wdCount.toNat + k ∧ t.highCount.toNat = s.highCount.toNat + k := by
  induction k generalizing s with
  | zero => exact ⟨hr, rfl, rfl⟩
  | succ k ih =>
    have hsample := apply_sampleHigh_of_lt hr (by omega) (by omega)
    have hwd : (s.apply .sampleHigh).wdCount.toNat = s.wdCount.toNat + 1 := by
      rw [hsample]
      show (s.wdCount + 1).toNat = _
      bv_omega
    have hhigh : (s.apply .sampleHigh).highCount.toNat = s.highCount.toNat + 1 := by
      rw [hsample]
      show (s.highCount + 1).toNat = _
      bv_omega
    obtain ⟨hruns, hwd', hhigh'⟩ := ih (s := s.apply .sampleHigh) (by rw [hsample]; exact hr) (by omega) (by omega)
    exact ⟨hruns, hwd'.trans (by omega), hhigh'.trans (by omega)⟩

/-- The HIGH sample that brings the run to 200 ends the attempt with ABORT, on the budget's last sample too (R125, R127). -/
theorem applyAll_replicate_sampleHigh_abort {n : Nat} {s : State} (hr : s.state = .running)
    (hh : s.highCount.toNat < 200) (hn : s.highCount.toNat + n = 200) (hw : s.wdCount.toNat + n ≤ 50000) :
    (s.applyAll (List.replicate n .sampleHigh)).endCause = .abort := by
  obtain ⟨k, rfl⟩ : ∃ k, n = k + 1 := Nat.exists_eq_add_one.2 (by omega)
  obtain ⟨hruns, _, hhigh⟩ := applyAll_replicate_sampleHigh_running k hr (by omega) (by omega)
  have habort : (countUp (s.applyAll (List.replicate k .sampleHigh)).highCount).toNat = 200 := by
    rw [countUp_toNat (by omega)]
    omega
  rw [List.replicate_succ', State.applyAll_append]
  exact congrArg State.endCause (State.sampleWord_high_abort hruns habort)

/-- Settles O53: each sample takes the watchdog count one up, each HIGH one the run too, and both counts have a limit that
ends the attempt. -/
theorem attemptEndsWithinTheWatchdogBudget : Obligations.AttemptEndsWithinTheWatchdogBudget := by
  rintro s hr ⟨hw, hh, _⟩
  refine ⟨fun ls => applyAll_samples_done_of_budget hr hw,
    applyAll_replicate_sampleHigh_done hr hh (Nat.sub_le _ _), fun h0 hbudget => ?_,
    fun n => applyAll_eq_self fun i hi => by rw [List.eq_of_mem_replicate hi]; rfl⟩
  have hclosed : s.highCount.toNat = 0 := by rw [h0]; rfl
  obtain ⟨hruns, _⟩ := applyAll_replicate_sampleHigh_running 199 hr (by omega) (by omega)
  exact ⟨hruns, applyAll_replicate_sampleHigh_abort hr hh (by omega) hbudget⟩

end Sys2Proof.Safety
end

section
/-! PROOFS. The bit-frame accumulator: what PULSE (R140) does for the handshake pulses (R143, R144, R149), the
forty data pulses (R145 to R147), and the pulse after them (R142). -/

/-! What a counted pulse does, by its place in the attempt. -/

namespace Sys2Proof.Machine

variable {wW hW : Nat} {s : State wW hW}

/-- A handshake pulse is not classified, and the second one clears the accumulator, whatever the duration (R143, R144). -/
theorem State.countedPulse_handshake (h : s.pulseIndex.toNat ≤ 2) (P : Params) (d : Nat) :
    s.countedPulse P d = (if s.pulseIndex.toNat = 2 then s.clearAccumulator else s, .none) := by
  rcases s.countedPulse_cases P d with ⟨hp, heq⟩ | ⟨hp, heq⟩ | ⟨hp, _⟩ | ⟨hp, _⟩
  · rw [heq, if_neg (by omega)]
  · rw [heq, if_pos hp]
  · omega
  · omega

/-- A bit that leaves the byte unfinished is shifted in and counted (R146). -/
theorem State.accumulate_of_bits_lt_seven (h : s.bits.toNat < 7) (c : Bool) :
    s.accumulate c = { s with acc := (s.shiftIn c).acc, bits := s.bits + 1 } := by
  have hcount : countUp s.bits = s.bits + 1 := countUp_eq (by omega)
  rcases s.accumulate_cases c with ⟨h8, _⟩ | ⟨_, heq⟩
  · exact absurd (hcount.symm.trans h8) (by bv_omega)
  · rw [heq, State.shiftIn, hcount]

/-- The eighth bit clears the accumulator, and writes the whole byte where there is an index (R147). -/
theorem State.accumulate_eighthBit (h : s.bits = 7) (c : Bool) :
    s.accumulate c =
      { s with acc := 0, bits := 0,
               frame := (byteIndex s.pulseIndex).elim s.frame fun k => s.frame.write k.val (s.shiftIn c).acc } := by
  have hcount : countUp s.bits = 8 := by rw [h, countUp_eq (by decide)]; rfl
  rcases s.accumulate_cases c with ⟨_, heq⟩ | ⟨hne, _⟩
  · rcases (s.shiftIn c).byteStore_cases with ⟨hk, hstore⟩ | ⟨k, hk, hstore⟩ <;>
    · rw [State.shiftIn_pulseIndex] at hk
      rw [heq, hstore, hk]
      rfl
  · exact absurd hcount hne

end Sys2Proof.Machine

/-! The LOW sample that ends a pulse, on this hardware. -/

namespace Sys2Proof.Safety

open Sys2Proof.Machine

/-- The block once a LOW sample and the pulse it ends are counted, before PULSE looks at the pulse (R123, R124, R141). -/
def withPulseCounted (s : State) : State :=
  { s with wdCount := s.wdCount + 1, highCount := 0, pulseIndex := s.pulseIndex + 1 }

section
variable {s u : State} (hr : s.state = .running) (hw : s.wdCount.toNat < 65535) (hopen : s.highCount ≠ 0)

include hw in
/-- The model's counting steps give it, where no counter is at its width's largest value. -/
theorem countPulse_eq_withPulseCounted (hp : s.pulseIndex.toNat ≤ 42) :
    s.countSample.clearRun.countPulse = withPulseCounted s := by
  have hwd : countUp s.wdCount = s.wdCount + 1 := countUp_eq (by omega)
  have hpulse : countUp s.pulseIndex = s.pulseIndex + 1 := countUp_eq (by omega)
  rw [withPulseCounted, ← hwd, ← hpulse]
  rfl

theorem withPulseCounted_pulseIndex_toNat (hp : s.pulseIndex.toNat ≤ 42) :
    (withPulseCounted s).pulseIndex.toNat = s.pulseIndex.toNat + 1 := by
  show (s.pulseIndex + 1).toNat = _
  bv_omega

include hr hw hopen

/-- A pulse without an event is followed by the watchdog rule (R127). -/
theorem exec_sampleLow_noEvent (hp : s.pulseIndex.toNat ≤ 42)
    (hpulse : (withPulseCounted s).countedPulse Config.params s.highCount.toNat = (u, .none)) :
    exec .sampleLow s = .next (withWatchdog u) := by
  rw [← countPulse_eq_withPulseCounted hw hp] at hpulse
  have hlow := State.sampleWord_low_noEvent hr (State.highCount_toNat_ne_zero hopen) hpulse
  exact exec_next_iff.2 (hlow.trans u.watchdogTest_params)

/-- A pulse with an event ends the attempt, whatever the watchdog would do (R127). -/
theorem exec_sampleLow_event {e : EndCause} (hp : s.pulseIndex.toNat ≤ 42) (he : e ≠ .none)
    (hpulse : (withPulseCounted s).countedPulse Config.params s.highCount.toNat = (u, e)) :
    exec .sampleLow s = .next (u.finish e) := by
  rw [← countPulse_eq_withPulseCounted hw hp] at hpulse
  exact exec_next_iff.2 (State.sampleWord_low_event hr (State.highCount_toNat_ne_zero hopen) he hpulse)

/-- A handshake pulse is counted and discarded, and the second one clears the accumulator (R143, R144). -/
theorem exec_sampleLow_handshake (hp : s.pulseIndex.toNat < 2) :
    exec .sampleLow s = .next (withWatchdog
      (if s.pulseIndex.toNat + 1 = 2 then (withPulseCounted s).clearAccumulator else withPulseCounted s)) := by
  have hcount := withPulseCounted_pulseIndex_toNat (s := s) (by omega)
  have hpulse := State.countedPulse_handshake (s := withPulseCounted s) (by omega) Config.params s.highCount.toNat
  rw [hcount] at hpulse
  exact exec_sampleLow_noEvent hr hw hopen (by omega) hpulse

/-- A data pulse of at most 84 samples is classified and accumulated (R145, R146). -/
theorem exec_sampleLow_dataPulse (hd : s.highCount.toNat < 85) (h2 : 2 ≤ s.pulseIndex.toNat)
    (h41 : s.pulseIndex.toNat ≤ 41) :
    exec .sampleLow s =
      .next (withWatchdog ((withPulseCounted s).accumulate (decide (30 ≤ s.highCount.toNat)))) := by
  have hcount := withPulseCounted_pulseIndex_toNat (s := s) (by omega)
  have hpulse := State.countedPulse_data (s := withPulseCounted s) (by omega) (by omega)
    (classify_params_ne_unclassifiable hd)
  exact exec_sampleLow_noEvent hr hw hopen (by omega) hpulse

/-- The eighth bit of a data pulse completes its byte, at the byte index of the pulse counted (R147). -/
theorem exec_sampleLow_eighthBit (hd : s.highCount.toNat < 85) (h2 : 2 ≤ s.pulseIndex.toNat)
    (h41 : s.pulseIndex.toNat ≤ 41) (hb : s.bits = 7) :
    exec .sampleLow s = .next (withWatchdog
      { withPulseCounted s with
        acc := 0, bits := 0,
        frame := (byteIndex (s.pulseIndex + 1)).elim s.frame fun k =>
          s.frame.write k.val (shifted s.acc s.highCount.toNat) }) := by
  rw [exec_sampleLow_dataPulse hr hw hopen hd h2 h41, State.accumulate_eighthBit (s := withPulseCounted s) hb,
    State.shiftIn_acc, shiftIn_acc_eq]
  rfl

omit hw in
/-- The statement's index of that byte is the one the model computes. -/
theorem lowStoreIndex_eighthBit (hd : s.highCount.toNat < 85) (h2 : 2 ≤ s.pulseIndex.toNat)
    (h41 : s.pulseIndex.toNat ≤ 41) (hb : s.bits = 7) :
    lowStoreIndex Config.params s = byteIndex (s.pulseIndex + 1) := by
  have hcount : (countUp s.pulseIndex).toNat = s.pulseIndex.toNat + 1 := countUp_toNat (by omega)
  have hlow : 2 < (countUp s.pulseIndex).toNat := by omega
  have hhigh : (countUp s.pulseIndex).toNat ≤ 42 := by omega
  have h8 : countUp s.bits = 8 := by rw [hb, countUp_eq (by decide)]; rfl
  rw [← countUp_eq (v := s.pulseIndex) (by omega)]
  exact if_pos ⟨hr, State.highCount_toNat_ne_zero hopen, hlow, hhigh, classify_params_ne_unclassifiable hd, h8⟩

end

theorem withWatchdog_frame (u : State) : (withWatchdog u).frame = u.frame := by
  rw [← State.watchdogTest_params, State.watchdogTest_frame]

/-- From pulse 8 to pulse 42 the byte index is the formula of R147. -/
theorem byteIndex_succ {p : BitVec 6} (h7 : 7 ≤ p.toNat) (h41 : p.toNat ≤ 41) :
    byteIndex (p + 1) = some ⟨(p.toNat + 1) / 8 - 1, by omega⟩ := by
  have hsucc : (p + 1).toNat = p.toNat + 1 := by bv_omega
  rw [byteIndex_eq (by omega) (by omega)]
  simp only [hsucc]

/-- In a running attempt seven bits are held exactly before the last pulse of each byte (R28, R147). -/
theorem bits_eq_seven_iff {s : State} (h : RunningInv Config.params s) :
    s.bits = 7#4 ↔ s.pulseIndex.toNat + 1 ∈ [10, 18, 26, 34, 42] := by
  obtain ⟨_, _, hpulses, hbits, _⟩ := h
  have hseven : s.bits = 7#4 ↔ (s.pulseIndex.toNat - 2) % 8 = 7 := by
    rw [BitVec.toNat_eq, hbits]
    rfl
  simp only [hseven, List.mem_cons, List.not_mem_nil, or_false]
  omega

/-! The obligations. -/

/-- Settles O25: the two handshake pulses, told apart by the pulse count. -/
theorem handshakePulsesAreDiscarded : Obligations.HandshakePulsesAreDiscarded := by
  intro s hr hw hopen
  refine ⟨fun hp => ?_, fun hp => ?_⟩ <;>
  · rw [exec_sampleLow_handshake hr hw hopen (by rw [hp]; decide), withPulseCounted, hp]
    rfl

/-- Settles O26: a handshake pulse's effect does not read its duration. -/
theorem handshakeDurationIsForgotten : Obligations.HandshakeDurationIsForgotten := by
  intro s d hr hp hopen hd
  have hcount : (countUp s.pulseIndex).toNat = s.pulseIndex.toNat + 1 := countUp_toNat (by omega)
  have hpulse := State.countedPulse_handshake (s := s.countSample.clearRun.countPulse)
    (show (countUp s.pulseIndex).toNat ≤ 2 by omega) Config.params
  exact ⟨_,
    exec_next_iff.2 (State.sampleWord_low_noEvent hr (State.highCount_toNat_ne_zero hopen) (hpulse _)),
    exec_next_iff.2 (State.sampleWord_low_noEvent (s := { s with highCount := d }) hr
      (State.highCount_toNat_ne_zero hd) (hpulse _))⟩

/-- Settles O27: the byte is not full, so the bit is held. -/
theorem dataBitIsShiftedIn : Obligations.DataBitIsShiftedIn := by
  intro s hr hw hopen hd h2 h41 hb
  rw [exec_sampleLow_dataPulse hr hw hopen hd h2 h41, State.accumulate_of_bits_lt_seven (s := withPulseCounted s) hb,
    State.shiftIn_acc, shiftIn_acc_eq]
  rfl

/-- Settles O29: the store's index is `lowStoreIndex`, which SAMPLE_LOW's frame rule names. -/
theorem eighthBitStoresAtItsByteIndex : Obligations.EighthBitStoresAtItsByteIndex := by
  intro s hr hw hopen hd h2 h41 hb
  have hindex := lowStoreIndex_eighthBit hr hopen hd h2 h41 hb
  refine ⟨hindex, exec_sampleLow_eighthBit hr hw hopen hd h2 h41 hb, fun t a hexec ha => ?_,
    fun h7 => ⟨_, byteIndex_succ h7 h41, rfl⟩⟩
  obtain ⟨hread, _⟩ := sampleLowFrame s t hexec
  exact hread a (by rwa [hindex])

/-- Settles O28: from pulse 8 on there is an index, and it is the formula of R147. -/
theorem eighthBitStoresTheByte : Obligations.EighthBitStoresTheByte := by
  refine ⟨fun s hr hw hopen hd h7 h41 hb => ?_, fun s => bits_eq_seven_iff⟩
  have hstore := exec_sampleLow_eighthBit hr hw hopen hd (by omega) h41 hb
  rw [byteIndex_succ h7 h41] at hstore
  refine ⟨hstore, fun t hexec => ?_, by omega, fun hinv => ?_⟩
  · obtain rfl := Host.Outcome.next.inj (hstore.symm.trans hexec)
    rw [withWatchdog_frame]
    exact ⟨Memory.read_write_same _ _ _, fun a ha => Memory.read_write_other _ _ ha⟩
  · have hpulse := (bits_eq_seven_iff hinv).1 hb
    simp only [List.mem_cons, List.not_mem_nil, or_false] at hpulse
    omega

/-- Settles O30: a data pulse of no class answers with its event. -/
theorem unclassifiableDataPulseEndsTheAttempt : Obligations.UnclassifiableDataPulseEndsTheAttempt := by
  refine ⟨classify_params, fun s hr hw hd h2 h41 => ?_, fun s ⟨_, hhigh, _⟩ => Nat.le_of_lt_succ hhigh⟩
  have hcount := withPulseCounted_pulseIndex_toNat (s := s) (by omega)
  have hpulse := State.countedPulse_unclassifiable (s := withPulseCounted s) (by omega) (by omega)
    (classify_params_eq_unclassifiable hd)
  exact exec_sampleLow_event hr hw (by bv_omega) (by omega) (by decide) hpulse

/-- Settles O31: the pulse after the fortieth data bit answers with its event before it is classified. -/
theorem fortyFirstDataPulseOverflows : Obligations.FortyFirstDataPulseOverflows := by
  intro s hr hw hopen hp
  have h42 : s.pulseIndex.toNat = 42 := by rw [hp]; rfl
  have hcount := withPulseCounted_pulseIndex_toNat h42.le
  have hpulse := State.countedPulse_overflow (s := withPulseCounted s) (by omega) Config.params s.highCount.toNat
  rw [exec_sampleLow_event hr hw hopen h42.le (by decide) hpulse, withPulseCounted, hp]
  rfl

end Sys2Proof.Safety
end

section
/-! PROOFS. The checksum validator: which Frames the checksum accepts (R160 to R163), the verdict of an ended attempt
(R166), and the reading of an accepted Frame (R164, R165, R167 to R169). -/

/-! The checksum and the conversion, as functions of the Frame. -/

namespace Sys2Proof.Machine

theorem checksumCalc_toNat (m : Memory) : (checksumCalc m).toNat =
    ((m.read 0).toNat + (m.read 1).toNat + (m.read 2).toNat + (m.read 3).toNat) % 256 :=
  BitVec.toNat_ofNat _ 8

theorem checksumCalc_eq_zero_iff (m : Memory) : checksumCalc m = 0 ↔
    ((m.read 0).toNat + (m.read 1).toNat + (m.read 2).toNat + (m.read 3).toNat) % 256 = 0 := by
  rw [BitVec.toNat_inj.symm, checksumCalc_toNat]
  rfl

theorem checksumOk_iff (m : Memory) : checksumOk m = true ↔ checksumCalc m = m.read 4 ∧ checksumCalc m ≠ 0 := by
  rw [checksumOk, Bool.and_eq_true, beq_iff_eq, bne_iff_ne]

/-- A Frame is accepted only with a nonzero fifth byte and a nonzero computed checksum (R161). -/
theorem checksumOk_eq_false {m : Memory} (h : checksumCalc m = 0 ∨ m.read 4 = 0) : checksumOk m = false := by
  refine Bool.eq_false_iff.2 fun hok => ?_
  obtain ⟨hcalc, hne⟩ := (checksumOk_iff m).1 hok
  rcases h with hzero | hzero
  · exact hne hzero
  · exact hne (hcalc.trans hzero)

/-- `humidity_x10` in exact arithmetic: two bytes fit its 16 bits (R164). -/
theorem humidityX10_toNat (m : Memory) : (humidityX10 m).toNat = (m.read 0).toNat * 256 + (m.read 1).toNat := by
  rw [humidityX10, BitVec.toNat_ofNat]
  exact Nat.mod_eq_of_lt (by omega)

theorem tempNeg_iff (m : Memory) : tempNeg m = true ↔ m.read 2 = 0x80#8 := beq_iff_eq

/-- Settles O33: the ports are these functions of the Frame. -/
theorem outputsShowChecksumAndConversion : Obligations.OutputsShowChecksumAndConversion := fun s =>
  ⟨checksumCalc_toNat s.frame, checksumOk_iff s.frame, humidityX10_toNat s.frame, tempNeg_iff s.frame, rfl⟩

/-- Settles O37: such a sum's computed checksum is 0. -/
theorem payloadSumMultipleOf256IsRejected : Obligations.PayloadSumMultipleOf256IsRejected := fun m h =>
  checksumOk_eq_false (.inl ((checksumCalc_eq_zero_iff m).2 h))

/-- The five bytes a Frame is built of, by index; every other index is unlisted. -/
theorem Memory.read_ofBytes (b0 b1 b2 b3 b4 : Byte) (a : Nat) :
    (Memory.ofBytes b0 b1 b2 b3 b4).read a = [b0, b1, b2, b3, b4].getD a 0 := by
  match a with
  | 0 | 1 | 2 | 3 | 4 | n + 5 => simp [Memory.ofBytes, Memory.read_write_other]

/-- A Frame whose fifth byte is its payload sum, modulo 256, is accepted unless that is 0 (R161). -/
theorem checksumOk_ofBytes {b0 b1 b2 b3 : Byte} (h : (b0.toNat + b1.toNat + b2.toNat + b3.toNat) % 256 ≠ 0) :
    checksumOk (Memory.ofBytes b0 b1 b2 b3 (BitVec.ofNat 8 (b0.toNat + b1.toNat + b2.toNat + b3.toNat))) = true := by
  refine (checksumOk_iff _).2 ⟨?_, ?_⟩
  · simp [checksumCalc, Memory.read_ofBytes]
  · rw [Ne, checksumCalc_eq_zero_iff]
    simp only [Memory.read_ofBytes]
    exact h

/-! The verdict and the reading. -/

variable {wW hW : Nat} {e : EndCause} {s : State wW hW}

theorem frameComplete_iff_dataBits (p : BitVec 6) : frameComplete p = true ↔ dataBits p = 40#6 := by
  rw [frameComplete, beq_iff_eq, ← BitVec.toNat_inj]
  rfl

theorem State.verdict_of_pulseEvent (h : e = .unclassifiable ∨ e = .overflow) : s.verdict e = .invalid := if_pos h

/-- At a loop end the checksum decides on a complete Frame (R166). -/
theorem State.verdict_of_complete (he : e = .abort ∨ e = .watchdog) (h : frameComplete s.pulseIndex = true) :
    s.verdict e = if checksumOk s.frame then .valid else .invalid := by
  rcases he with rfl | rfl <;> rw [State.verdict, if_neg (by decide), if_pos h]

/-- At a loop end an incomplete Frame gets TIMEOUT, whatever it holds (R166). -/
theorem State.verdict_of_incomplete (he : e = .abort ∨ e = .watchdog) (h : ¬frameComplete s.pulseIndex = true) :
    s.verdict e = .timeout := by
  rcases he with rfl | rfl <;> rw [State.verdict, if_neg (by decide), if_neg h]

theorem State.verdict_ne_valid_of_incomplete (e : EndCause) (h : ¬frameComplete s.pulseIndex = true) :
    s.verdict e ≠ .valid := by
  rw [State.verdict, if_neg h]
  split <;> exact nofun

theorem State.validReading_finish (h : s.verdict e = .valid) : (s.finish e).validReading = some s.reading :=
  if_pos ⟨rfl, h⟩

theorem State.reading_humidityPercent (s : State wW hW) :
    s.reading.humidityPercent = (((s.frame.read 0).toNat * 256 + (s.frame.read 1).toNat : Nat) : ℚ) / 10 := by
  rw [Reading.humidityPercent, State.reading, humidityX10_toNat]

/-- The temperature is negated exactly when byte 2 is 0x80 (R165, R167). -/
theorem State.reading_celsius (s : State wW hW) : s.reading.celsius =
    if s.frame.read 2 = 0x80#8 then -(((s.frame.read 3).toNat : ℚ) / 10) else ((s.frame.read 3).toNat : ℚ) / 10 := by
  simp only [Reading.celsius, State.reading, tempNeg_iff, tempMagX10]

/-- The verdict reads the pulse count, the computed checksum and the fifth byte, and no more of the Frame (R168). -/
theorem State.verdict_congr {t : State wW hW} (hpulse : s.pulseIndex = t.pulseIndex)
    (hcalc : checksumCalc s.frame = checksumCalc t.frame) (hfifth : s.frame.read 4 = t.frame.read 4) (e : EndCause) :
    s.verdict e = t.verdict e := by
  have hok : checksumOk s.frame = checksumOk t.frame := by rw [checksumOk, checksumOk, hcalc, hfifth]
  rw [State.verdict, State.verdict, hpulse, hok]

/-- The reading reads bytes 0, 1 and 3, and of byte 2 the test for 0x80 (R168). -/
theorem State.reading_congr {t : State wW hW} (h0 : s.frame.read 0 = t.frame.read 0)
    (h1 : s.frame.read 1 = t.frame.read 1) (h3 : s.frame.read 3 = t.frame.read 3)
    (h2 : s.frame.read 2 = 0x80#8 ↔ t.frame.read 2 = 0x80#8) : s.reading = t.reading := by
  have hneg : tempNeg s.frame = tempNeg t.frame := by rwa [Bool.eq_iff_iff, tempNeg_iff, tempNeg_iff]
  rw [State.reading, State.reading, hneg, humidityX10, humidityX10, tempMagX10, tempMagX10, h0, h1, h3]

/-- Settles O39: `data_bits` is 40 exactly when the Frame is complete. -/
theorem verdictFollowsCauseAndFrame : Obligations.VerdictFollowsCauseAndFrame := fun s _ =>
  ⟨State.verdict_of_pulseEvent,
    fun he hbits => State.verdict_of_complete he ((frameComplete_iff_dataBits s.pulseIndex).2 hbits),
    fun he hbits => State.verdict_of_incomplete he ((frameComplete_iff_dataBits s.pulseIndex).not.2 hbits)⟩

/-- Settles O40: what the verdict and the reading read. -/
theorem byteTwoMattersOnlyForChecksumAndSign : Obligations.ByteTwoMattersOnlyForChecksumAndSign := by
  refine ⟨fun _ _ e hpulse hcalc hfifth => State.verdict_congr hpulse hcalc hfifth e, fun s h => ⟨?_, ?_⟩,
    fun s h => ⟨(tempNeg_iff s.frame).2 h, ?_⟩, fun _ _ => State.reading_congr⟩
  · exact Bool.eq_false_iff.2 fun hneg => h ((tempNeg_iff s.frame).1 hneg)
  · rw [s.reading_celsius, if_neg h]
  · rw [s.reading_celsius, if_pos h]

/-- Settles O41: the Frame is complete and accepted, and its bytes are the given ones. -/
theorem everyChecksummedPayloadIsValid : Obligations.EveryChecksummedPayloadIsValid := by
  intro s e b0 b1 b2 b3 he hpulse hsum hframe
  have hcomplete : frameComplete s.pulseIndex = true := by rw [hpulse]; decide
  have hok : checksumOk s.frame = true := by rw [hframe, checksumOk_ofBytes hsum]
  have hvalid : s.verdict e = .valid := by rw [State.verdict_of_complete he hcomplete, if_pos hok]
  refine ⟨s.reading, State.validReading_finish hvalid, ?_, ?_⟩
  · rw [s.reading_humidityPercent, hframe, Memory.read_ofBytes, Memory.read_ofBytes]
    rfl
  · rw [s.reading_celsius, hframe, Memory.read_ofBytes, Memory.read_ofBytes]
    rfl

end Sys2Proof.Machine

/-! An incomplete Frame, in the states the invariant allows. -/

namespace Sys2Proof.Safety

open Sys2Proof.Machine

section

variable {wW hW : Nat} {P : Params} {s : State wW hW} (h : Inv P s) (hp : s.pulseIndex.toNat < 42)
include h hp

/-- Before the fortieth data bit nothing is stored in the fifth byte (R163). -/
theorem Inv.read_four_of_incomplete : s.frame.read 4 = 0 := by
  obtain ⟨_, _, hidle, _, hdone⟩ := id h
  cases hs : s.state with
  | idle => rw [hidle hs, State.clearRegisters_read]
  | running => exact (h.dataInv hs).read_four hp
  | done =>
    obtain ⟨_, _, _, _, _, _, hread⟩ := hdone hs
    exact hread hp

/-- No attempt has the verdict VALID before the fortieth data bit (R163). -/
theorem Inv.result_ne_valid_of_incomplete : s.result ≠ .valid := by
  obtain ⟨_, _, hidle, hrun, hdone⟩ := h
  cases hs : s.state with
  | idle => rw [hidle hs]; exact nofun
  | running =>
    obtain ⟨_, _, _, _, _, hresult, _⟩ := hrun hs
    rw [hresult]
    exact nofun
  | done =>
    obtain ⟨_, hresult, _⟩ := hdone hs
    rw [hresult]
    exact State.verdict_ne_valid_of_incomplete _ (frameComplete_iff.not.2 hp.not_ge)

end

/-- Settles O38: the invariant keeps the fifth byte 0 until the frame is complete. -/
theorem incompleteFrameIsNeverAccepted : Obligations.IncompleteFrameIsNeverAccepted := by
  refine ⟨fun _ hzero => checksumOk_eq_false (.inr hzero), fun s h hc => ?_⟩
  have hincomplete : ¬frameComplete s.pulseIndex = true := Bool.eq_false_iff.1 hc
  have hp : s.pulseIndex.toNat < 42 := Nat.lt_of_not_le (frameComplete_iff.not.1 hincomplete)
  have hfour := h.read_four_of_incomplete hp
  refine ⟨hfour, checksumOk_eq_false (.inr hfour), h.result_ne_valid_of_incomplete hp, fun hs he => ?_⟩
  obtain ⟨_, _, _, _, hdone⟩ := h
  obtain ⟨_, hresult, _⟩ := hdone hs
  rw [hresult, State.verdict_of_incomplete he hincomplete]

end Sys2Proof.Safety
end

section
/-! PROOFS. The host's contract: what one attempt and one acquisition do to the pin and leave the block in (R182 to R190),
and the host's whole use of the block from power-up (R181, R231, R232). -/

/-! One attempt. -/

namespace Sys2Proof.Machine

open Sys2Proof.Safety

variable {wW hW : Nat}

/-- Only a done block gives a reading (R185). -/
theorem State.isDone_of_validReading {s : State wW hW} {r : Reading} (h : s.validReading = some r) :
    s.isDone = true := by
  unfold State.validReading at h
  split at h
  · next hvalid => exact hvalid.1
  · cases h

theorem State.validReading_eq_none {s : State wW hW} (h : s.result ≠ .valid) : s.validReading = none :=
  if_neg fun ⟨_, hvalid⟩ => h hvalid

/-- Samples outside an attempt, one after another, do nothing (R106). -/
theorem State.applyAll_samples_of_not_running {s : State} (h : s.state ≠ .running) (line : List Level) :
    s.applyAll (line.map sampleInstr) = s := by
  refine applyAll_eq_self fun i hi => ?_
  obtain ⟨l, _, rfl⟩ := List.mem_map.1 hi
  rw [apply_sampleInstr]
  exact State.sampleWord_of_not_running h _ l

/-- The wait for `done` leaves the block that the whole line leaves: the samples the host does not give would do nothing. -/
theorem sampleUntilDone_block (line : List Level) (s : State) :
    (sampleUntilDone line s).2 = s.applyAll (line.map sampleInstr) := by
  induction line generalizing s with
  | nil => rfl
  | cons l ls ih =>
    unfold sampleUntilDone
    split
    · next hdone =>
      have hnot : s.state ≠ .running := by rw [s.isDone_iff.1 hdone]; decide
      exact (State.applyAll_samples_of_not_running hnot (l :: ls)).symm
    · show (sampleUntilDone ls (s.sampleWord Config.params l)).2 =
        (s.apply (sampleInstr l)).applyAll (ls.map sampleInstr)
      rw [ih, apply_sampleInstr]

/-- Waiting for `done`, the host gives samples and waits for ticks, and does nothing else (R184). -/
theorem mem_sampleUntilDone {line : List Level} {s : State} {a : HostAction} (h : a ∈ (sampleUntilDone line s).1) :
    a = .waitTick ∨ ∃ l, a = .give (sampleInstr l) := by
  induction line generalizing s with
  | nil => exact absurd h List.not_mem_nil
  | cons l ls ih =>
    unfold sampleUntilDone at h
    split at h
    · exact absurd h List.not_mem_nil
    · rcases List.mem_cons.1 h with rfl | h
      · exact .inr ⟨l, rfl⟩
      · rcases List.mem_cons.1 h with rfl | h
        · exact .inl rfl
        · exact ih h

/-- What is neither a sample nor the wait for a tick, an attempt does in its handshake only. -/
theorem count_attempt {a : HostAction} (htick : a ≠ .waitTick) (hsample : ∀ l, a ≠ .give (sampleInstr l))
    (line : List Level) (s : State) : (attempt line s).1.count a = handshakeActions.count a := by
  have hnone : a ∉ (sampleUntilDone line s.startWord).1 := fun h =>
    (mem_sampleUntilDone h).elim htick fun ⟨l, hl⟩ => hsample l hl
  rw [attempt, List.count_append, List.count_eq_zero.2 hnone, Nat.add_zero]

theorem handshakes_attempt (line : List Level) (s : State) : handshakes (attempt line s).1 = 1 :=
  count_attempt (a := .setMode .output) nofun (fun _ => nofun) line s

theorem pauses_attempt (line : List Level) (s : State) : pauses (attempt line s).1 = 0 :=
  count_attempt (a := .sleepMillis 2000) nofun (fun _ => nofun) line s

theorem count_reset_attempt (line : List Level) (s : State) : (attempt line s).1.count (.give .reset) = 0 :=
  count_attempt (a := .give .reset) nofun (fun l => by cases l <;> exact nofun) line s

/-- A line with a sample for the whole budget takes an attempt to its end (R129, R184). -/
theorem attempt_done {line : List Level} {s : State} (hs : s.state ≠ .running) (hline : 50000 ≤ line.length) :
    (attempt line s).2.state = .done := by
  show (sampleUntilDone line s.startWord).2.state = .done
  rw [State.startWord_of_not_running hs, sampleUntilDone_block]
  exact applyAll_samples_done_of_budget rfl (by decide : (0 : Nat) < 50000) hline

/-! The attempts of one acquisition. -/

section
variable {n : Nat} {lines : List (List Level)} {s : State} {a : List HostAction × State}
  (ha : attempt (lines.headD []) s = a)
include ha

/-- A VALID attempt is the last one (R187). -/
theorem attempts_of_valid {r : Reading} (h : a.2.validReading = some r) :
    attempts (n + 1) lines s = { outcome := some (.success r), actions := a.1, block := a.2 } := by
  simp only [attempts, ha, State.isDone_of_validReading h, if_true, h]

/-- An attempt that ended without VALID is followed by the pause and the remaining attempts (R187). -/
theorem attempts_of_not_valid (hdone : a.2.state = .done) (h : a.2.validReading = none) :
    attempts (n + 1) lines s = { attempts n lines.tail a.2 with
      actions := a.1 ++ pauseActions n ++ (attempts n lines.tail a.2).actions } := by
  simp only [attempts, ha, a.2.isDone_iff.2 hdone, if_true, h]

/-- An attempt whose line ends before `done` leaves the acquisition without an outcome (R241). -/
theorem attempts_of_not_done (h : a.2.state ≠ .done) :
    attempts (n + 1) lines s = { outcome := none, actions := a.1, block := a.2 } := by
  simp only [attempts, ha, if_neg (a.2.isDone_iff.not.2 h)]

variable (n lines s) in
/-- Everything the first of the attempts can lead to (R183): a success, a retry, or no end. -/
theorem attempts_succ_cases :
    (∃ r, a.2.validReading = some r ∧
      attempts (n + 1) lines s = { outcome := some (.success r), actions := a.1, block := a.2 }) ∨
    (a.2.state = .done ∧ a.2.validReading = none ∧
      attempts (n + 1) lines s = { attempts n lines.tail a.2 with
        actions := a.1 ++ pauseActions n ++ (attempts n lines.tail a.2).actions }) ∨
    (a.2.state ≠ .done ∧ attempts (n + 1) lines s = { outcome := none, actions := a.1, block := a.2 }) := by
  by_cases hdone : a.2.state = .done
  · cases h : a.2.validReading with
    | some r => exact .inl ⟨r, rfl, attempts_of_valid ha h⟩
    | none => exact .inr (.inl ⟨hdone, rfl, attempts_of_not_valid ha hdone h⟩)
  · exact .inr (.inr ⟨hdone, attempts_of_not_done ha hdone⟩)

end

/-! What the host does in them. -/

theorem pauses_pauseActions (n : Nat) : pauses (pauseActions n) = if n = 0 then 0 else 1 := by
  cases n <;> rfl

theorem handshakes_pauseActions (n : Nat) : handshakes (pauseActions n) = 0 := by
  cases n <;> rfl

theorem count_reset_pauseActions (n : Nat) : (pauseActions n).count (.give .reset) = 0 := by
  cases n <;> rfl

/-- One attempt and its pause put one handshake before those of the remaining attempts. -/
theorem handshakes_retry (line : List Level) (s : State) (n : Nat) (as : List HostAction) :
    handshakes ((attempt line s).1 ++ pauseActions n ++ as) = 1 + handshakes as := by
  have h1 := handshakes_attempt line s
  have h2 := handshakes_pauseActions n
  unfold handshakes at *
  rw [List.count_append, List.count_append, h1, h2]

/-- One attempt and its pause put one pause before those of the remaining attempts, or none after the last one (R187). -/
theorem pauses_retry (line : List Level) (s : State) (n : Nat) (as : List HostAction) :
    pauses ((attempt line s).1 ++ pauseActions n ++ as) = (if n = 0 then 0 else 1) + pauses as := by
  have h1 := pauses_attempt line s
  have h2 := pauses_pauseActions n
  unfold pauses at *
  rw [List.count_append, List.count_append, h1, h2, Nat.zero_add]

/-- NoData comes after all the handshakes, with a pause between each two of them (R187). -/
theorem attempts_noData {n : Nat} {lines : List (List Level)} {s : State}
    (h : (attempts n lines s).outcome = some (.failure .noData)) :
    handshakes (attempts n lines s).actions = n ∧ pauses (attempts n lines s).actions = n - 1 := by
  induction n generalizing lines s with
  | zero => exact ⟨rfl, rfl⟩
  | succ n ih =>
    rcases attempts_succ_cases n lines s rfl with ⟨r, _, heq⟩ | ⟨_, _, heq⟩ | ⟨_, heq⟩ <;>
      rw [heq] at h ⊢
    · cases h
    · obtain ⟨hhandshakes, hpauses⟩ := ih h
      refine ⟨?_, ?_⟩
      · rw [handshakes_retry, hhandshakes, Nat.add_comm]
      · rw [pauses_retry, hpauses]
        split <;> omega
    · cases h

/-- A success is the block's own reading, after at most `n` handshakes and one pause fewer (R185 to R187). -/
theorem attempts_success {n : Nat} {lines : List (List Level)} {s : State} {r : Reading}
    (h : (attempts n lines s).outcome = some (.success r)) :
    (attempts n lines s).block.validReading = some r ∧ handshakes (attempts n lines s).actions ≤ n ∧
      handshakes (attempts n lines s).actions = pauses (attempts n lines s).actions + 1 := by
  induction n generalizing lines s with
  | zero => cases h
  | succ n ih =>
    rcases attempts_succ_cases n lines s rfl with ⟨r', hr', heq⟩ | ⟨_, _, heq⟩ | ⟨_, heq⟩ <;>
      rw [heq] at h ⊢
    · cases h
      exact ⟨hr', by rw [handshakes_attempt]; omega, by rw [handshakes_attempt, pauses_attempt]⟩
    · obtain ⟨hblock, hle, hhandshakes⟩ := ih h
      have hn : n ≠ 0 := by omega
      refine ⟨hblock, ?_, ?_⟩
      · rw [handshakes_retry]
        omega
      · rw [handshakes_retry, pauses_retry, if_neg hn]
        omega
    · cases h

/-- No attempt asserts `rst` (R181). -/
theorem count_reset_attempts (n : Nat) (lines : List (List Level)) (s : State) :
    (attempts n lines s).actions.count (.give .reset) = 0 := by
  induction n generalizing lines s with
  | zero => rfl
  | succ n ih =>
    rcases attempts_succ_cases n lines s rfl with ⟨r, _, heq⟩ | ⟨_, _, heq⟩ | ⟨_, heq⟩ <;> rw [heq]
    · exact count_reset_attempt _ s
    · rw [List.count_append, List.count_append, count_reset_attempt, count_reset_pauseActions, ih]
    · exact count_reset_attempt _ s

/-- With a line long enough for each attempt, the attempts come to an outcome and leave the block not RUNNING (R190). -/
theorem attempts_finish {n : Nat} {lines : List (List Level)} {s : State} (hs : s.state ≠ .running)
    (hn : n ≤ lines.length) (hlines : ∀ l ∈ lines, 50000 ≤ l.length) :
    ((attempts n lines s).outcome = some (.failure .noData) ∨
      ∃ r, (attempts n lines s).outcome = some (.success r)) ∧
    (attempts n lines s).block.state ≠ .running := by
  induction n generalizing lines s with
  | zero => exact ⟨.inl rfl, hs⟩
  | succ n ih =>
    cases lines with
    | nil => exact absurd hn (Nat.not_succ_le_zero n)
    | cons line lines =>
      obtain ⟨hline, hlines⟩ := List.forall_mem_cons.1 hlines
      have hdone : (attempt line s).2.state = .done := attempt_done hs hline
      have hnot : (attempt line s).2.state ≠ .running := by rw [hdone]; decide
      rcases attempts_succ_cases n (line :: lines) s rfl with ⟨r, _, heq⟩ | ⟨_, _, heq⟩ | ⟨hends, _⟩
      · rw [heq]
        exact ⟨.inr ⟨r, rfl⟩, hnot⟩
      · rw [heq]
        exact ih hnot (Nat.le_of_succ_le_succ hn) hlines
      · exact absurd hdone hends

/-! One acquisition, and the host's whole use of the block. -/

theorem acquire_gpioFailed (pinOk : Bool) (lines : List (List Level)) (s : State) :
    acquire false pinOk lines s = { outcome := some (.failure .gpioInitFailed), actions := [], block := s } := rfl

theorem acquire_pinFailed (lines : List (List Level)) (s : State) :
    acquire true false lines s = { outcome := some (.failure .invalidPin), actions := [], block := s } := rfl

theorem acquire_checked (lines : List (List Level)) (s : State) : acquire true true lines s = attempts 3 lines s := rfl

/-- No acquisition asserts `rst` (R181). -/
theorem count_reset_acquire (gpioOk pinOk : Bool) (lines : List (List Level)) (s : State) :
    (acquire gpioOk pinOk lines s).actions.count (.give .reset) = 0 := by
  cases gpioOk with
  | false => rfl
  | true =>
    cases pinOk with
    | false => rfl
    | true => exact count_reset_attempts 3 lines s

/-- Whatever the two checks answer, an acquisition with lines long enough returns an outcome and leaves the block not
RUNNING (R182, R190). -/
theorem acquire_finishes (gpioOk pinOk : Bool) {lines : List (List Level)} {s : State} (hs : s.state ≠ .running)
    (hn : 3 ≤ lines.length) (hlines : ∀ l ∈ lines, 50000 ≤ l.length) :
    (acquire gpioOk pinOk lines s).outcome ≠ none ∧ (acquire gpioOk pinOk lines s).block.state ≠ .running := by
  cases gpioOk with
  | false => exact ⟨nofun, hs⟩
  | true =>
    cases pinOk with
    | false => exact ⟨nofun, hs⟩
    | true =>
      rw [acquire_checked]
      obtain ⟨houtcome | ⟨r, houtcome⟩, hblock⟩ := attempts_finish hs hn hlines
      · exact ⟨by rw [houtcome]; exact nofun, hblock⟩
      · exact ⟨by rw [houtcome]; exact nofun, hblock⟩

/-- An acquisition that is not finished is the host's last; any other leaves its block to the next one. -/
theorem acquisitions_cons (r : Request) (rs : List Request) (s : State) :
    acquisitions (r :: rs) s =
      if (acquire r.gpioOk r.pinOk r.lines s).outcome = none then [acquire r.gpioOk r.pinOk r.lines s]
      else acquire r.gpioOk r.pinOk r.lines s :: acquisitions rs (acquire r.gpioOk r.pinOk r.lines s).block := rfl

/-- Each of the host's acquisitions is one of those it was asked for, on some block. -/
theorem exists_acquire_of_mem_acquisitions {rs : List Request} {s : State} {a : Acquisition}
    (h : a ∈ acquisitions rs s) : ∃ r ∈ rs, ∃ t, a = acquire r.gpioOk r.pinOk r.lines t := by
  induction rs generalizing s with
  | nil => exact absurd h List.not_mem_nil
  | cons r rs ih =>
    rw [acquisitions_cons] at h
    split at h
    · exact ⟨r, List.mem_cons_self, s, List.mem_singleton.1 h⟩
    · rcases List.mem_cons.1 h with rfl | h
      · exact ⟨r, List.mem_cons_self, s, rfl⟩
      · obtain ⟨r', hr', t, ht⟩ := ih h
        exact ⟨r', List.mem_cons_of_mem r hr', t, ht⟩

/-- With lines long enough every request gets its acquisition, and each of them an outcome and a block not RUNNING, which
the next one starts from. -/
theorem acquisitions_finish {rs : List Request} {s : State} (hs : s.state ≠ .running)
    (hrs : ∀ r ∈ rs, 3 ≤ r.lines.length ∧ ∀ l ∈ r.lines, 50000 ≤ l.length) :
    (acquisitions rs s).length = rs.length ∧
      ∀ a ∈ acquisitions rs s, a.outcome ≠ none ∧ a.block.state ≠ .running := by
  induction rs generalizing s with
  | nil => exact ⟨rfl, fun _ ha => absurd ha List.not_mem_nil⟩
  | cons r rs ih =>
    obtain ⟨⟨hn, hlines⟩, hrs⟩ := List.forall_mem_cons.1 hrs
    have hfirst := acquire_finishes r.gpioOk r.pinOk hs hn hlines
    obtain ⟨hlength, hrest⟩ := ih hfirst.2 hrs
    rw [acquisitions_cons, if_neg hfirst.1]
    exact ⟨congrArg Nat.succ hlength, List.forall_mem_cons.2 ⟨hfirst, hrest⟩⟩

/-- RESET leaves nothing of the registers: equal inputs give equal blocks (R102, R231). -/
theorem State.resetWord_congr {s t : State wW hW} (hstimulus : t.stimulus = s.stimulus)
    (hfree : t.freeWords = s.freeWords) : t.resetWord = s.resetWord := by
  rw [State.resetWord, State.resetWord, State.clearRegisters, State.clearRegisters, hstimulus, hfree]

/-! The statements. -/

/-- Settles O55: the two checks come before everything else, GPIO first. -/
theorem fatalChecksEndTheAcquisitionAtOnce : Obligations.FatalChecksEndTheAcquisitionAtOnce := fun pinOk lines s =>
  ⟨acquire_gpioFailed pinOk lines s, acquire_pinFailed lines s⟩

/-- Settles O56: the counts by induction on the attempts left, the two retry clauses from the first attempt's end. -/
theorem retriesFollowTheContract : Obligations.RetriesFollowTheContract := by
  intro lines s
  rw [acquire_checked]
  refine ⟨attempts_noData, fun r => attempts_success, fun n r => attempts_of_valid rfl, fun n hdone hresult => ?_⟩
  rw [attempts_of_not_valid rfl hdone (State.validReading_eq_none hresult)]
  exact ⟨rfl, rfl⟩

/-- Settles O57: each attempt ends within its budget, and the last one that fails gives NoData. -/
theorem everyAcquisitionReturnsAnOutcome : Obligations.EveryAcquisitionReturnsAnOutcome :=
  fun _ _ hs hn hlines => (attempts_finish hs hn hlines).1

/-- Settles O59: RESET leaves only the host's input, in IDLE, and every acquisition after it starts outside RUNNING. -/
theorem hostResetsOnceBeforeTheFirstAttempt : Obligations.HostResetsOnceBeforeTheFirstAttempt := by
  intro rs s
  have hidle : s.resetWord.state ≠ .running := nofun
  refine ⟨rfl, fun a ha => ?_, fun t hstimulus hfree => ?_, acquisitions_finish hidle⟩
  · obtain ⟨r, _, t, rfl⟩ := exists_acquire_of_mem_acquisitions ha
    exact count_reset_acquire r.gpioOk r.pinOk r.lines t
  · rw [hostRun, hostRun, State.resetWord_congr hstimulus hfree]

end Sys2Proof.Machine
end

section
/-! PROOFS. The end of an attempt: what each of its causes needs and says (R200, R203), what it writes (R204), and that
nothing but START and RESET follows it (R205). -/

/-! Running and ended attempts. -/

namespace Sys2Proof.Machine

variable {wW hW : Nat} {s : State wW hW}

/-- Into a running attempt, and inside one, no operation brings a cause (R103, R204). -/
theorem State.applyFor_endCause_of_running {P : Params} {i : Instr} (hc : s.endCause = .none)
    (hruns : (s.applyFor P i).state = .running) : (s.applyFor P i).endCause = .none := by
  cases i with
  | reset => rfl
  | start =>
    rcases s.startWord_cases with ⟨_, heq⟩ | ⟨_, heq⟩
    · exact (congrArg State.endCause heq).trans hc
    · exact congrArg State.endCause heq
  | sampleHigh => exact (State.sampleWord_verdict_of_running hruns).2.trans hc
  | sampleLow => exact (State.sampleWord_verdict_of_running hruns).2.trans hc
  | nop => exact hc

/-- An operation on a running attempt leaves it without a cause, or `finish` ends it with one (R200, R204). -/
theorem State.applyFor_noCause_or_finish (hr : s.state = .running) (hc : s.endCause = .none) (P : Params) (i : Instr) :
    ((s.applyFor P i).state ≠ .done ∧ (s.applyFor P i).endCause = .none) ∨
      ∃ (u : State wW hW) (e : EndCause), e ≠ .none ∧ s.applyFor P i = u.finish e := by
  by_cases hreset : i = .reset
  · subst hreset
    exact .inl ⟨nofun, rfl⟩
  · exact (State.applyFor_running_or_finish hr P hreset).imp_left fun hruns =>
      ⟨by simp [hruns], State.applyFor_endCause_of_running hc hruns⟩

/-- A running attempt is over after an operation exactly when there is a cause (R200). -/
theorem State.applyFor_done_iff (hr : s.state = .running) (hc : s.endCause = .none) (P : Params) (i : Instr) :
    (s.applyFor P i).state = .done ↔ (s.applyFor P i).endCause ≠ .none := by
  rcases State.applyFor_noCause_or_finish hr hc P i with ⟨hstate, hcause⟩ | ⟨u, e, he, hends⟩
  · exact iff_of_false hstate (not_not.2 hcause)
  · rw [hends]
    exact iff_of_true rfl he

/-- An ended attempt's verdict is that of its cause, on the registers the ending left (R204). -/
theorem State.applyFor_result_of_endCause (hr : s.state = .running) (hc : s.endCause = .none) {P : Params} {i : Instr}
    (h : (s.applyFor P i).endCause ≠ .none) :
    (s.applyFor P i).result = (s.applyFor P i).verdict (s.applyFor P i).endCause := by
  rcases State.applyFor_noCause_or_finish hr hc P i with ⟨_, hnone⟩ | ⟨u, e, _, hends⟩
  · exact absurd hnone h
  · rw [hends]
    rfl

/-- Outside RUNNING an operation after which the block is done did nothing: RESET and START lead elsewhere (R101). -/
theorem State.applyFor_eq_self_of_done (hr : s.state ≠ .running) {P : Params} {i : Instr}
    (hdone : (s.applyFor P i).state = .done) : s.applyFor P i = s := by
  refine State.applyFor_of_not_running hr P ?_ ?_ <;> rintro rfl
  · cases hdone
  · rw [State.applyFor, State.startWord_of_not_running hr] at hdone
    cases hdone

/-- The verdict of an attempt that no pulse ended: TIMEOUT before 42 pulses, and then the checksum's (R166). -/
theorem State.verdict_of_loopEnd {e : EndCause} (he : e = .abort ∨ e = .watchdog) :
    s.verdict e = if s.pulseIndex.toNat < 42 then .timeout else if checksumOk s.frame then .valid else .invalid := by
  split
  · next hp => exact State.verdict_of_incomplete he (frameComplete_iff.not.2 hp.not_ge)
  · next hp => exact State.verdict_of_complete he (frameComplete_iff.2 (Nat.le_of_not_lt hp))

/-- A cleared block keeps nothing but the host's input (R102, R103). -/
theorem State.clearRegisters_congr {t : State wW hW} (hstimulus : s.stimulus = t.stimulus)
    (hfree : s.freeWords = t.freeWords) (r : RunState) : s.clearRegisters r = t.clearRegisters r := by
  rw [State.clearRegisters, State.clearRegisters, hstimulus, hfree]

end Sys2Proof.Machine

/-! The table of R200, on this hardware. -/

namespace Sys2Proof.Safety

open Sys2Proof.Machine

/-- The cause with which a sample ends an attempt that its level did not end: the watchdog's, or NONE (R126). -/
def watchdogCause (s : State) : EndCause := if s.wdCount = 49999#16 then .watchdog else .none

/-- The table of R200: the cause with which the operation `i` ends a running attempt `s`, in the order of R127 and R203, or
NONE. -/
def endingCause (s : State) (i : Instr) : EndCause :=
  if i = .sampleHigh ∧ s.highCount = 199#8 then .abort
  else if i = .sampleLow ∧ 85 ≤ s.highCount.toNat ∧ 2 ≤ s.pulseIndex.toNat ∧ s.pulseIndex.toNat ≤ 41 then
    .unclassifiable
  else if i = .sampleLow ∧ s.highCount ≠ 0 ∧ s.pulseIndex = 42#6 then .overflow
  else if i = .sampleHigh ∨ i = .sampleLow then watchdogCause s
  else .none

section
variable {s : State} {i : Instr}

theorem endingCause_eq_abort_iff : endingCause s i = .abort ↔ i = .sampleHigh ∧ s.highCount = 199#8 := by
  unfold endingCause watchdogCause
  split_ifs <;> simp_all

theorem endingCause_eq_unclassifiable_iff : endingCause s i = .unclassifiable ↔
    i = .sampleLow ∧ 85 ≤ s.highCount.toNat ∧ 2 ≤ s.pulseIndex.toNat ∧ s.pulseIndex.toNat ≤ 41 := by
  unfold endingCause watchdogCause
  split_ifs <;> simp_all

theorem endingCause_eq_overflow_iff : endingCause s i = .overflow ↔
    i = .sampleLow ∧ s.highCount ≠ 0 ∧ s.pulseIndex = 42#6 := by
  have hlater : s.pulseIndex.toNat ≤ 41 → s.pulseIndex ≠ 42#6 := fun h hp => by simp [hp] at h
  unfold endingCause watchdogCause
  split_ifs <;> simp_all

theorem endingCause_eq_watchdog_iff : endingCause s i = .watchdog ↔
    (i = .sampleHigh ∨ i = .sampleLow) ∧ s.wdCount = 49999#16 ∧ endingCause s i ≠ .abort ∧
      endingCause s i ≠ .unclassifiable ∧ endingCause s i ≠ .overflow := by
  unfold endingCause watchdogCause
  split_ifs <;> simp_all

theorem endingCause_of_not_sample (hhigh : i ≠ .sampleHigh) (hlow : i ≠ .sampleLow) : endingCause s i = .none := by
  simp [endingCause, hhigh, hlow]

/-- The watchdog rule on a counted sample that nothing has ended (R126). -/
theorem withWatchdog_endCause {u : State} (hwd : u.wdCount = s.wdCount + 1) (hc : u.endCause = .none) :
    (withWatchdog u).endCause = watchdogCause s := by
  have hlimit : u.wdCount = 50000#16 ↔ s.wdCount = 49999#16 := by
    rw [hwd]
    constructor <;> intro h <;> bv_omega
  unfold watchdogCause
  split_ifs with h
  · rw [withWatchdog_of_eq (hlimit.2 h), State.finish_endCause]
  · rw [withWatchdog_of_ne (mt hlimit.1 h), hc]

/-! The model follows the table. -/

theorem RunningInv.endCause_eq_none (hinv : RunningInv Config.params s) : s.endCause = .none := by
  obtain ⟨_, _, _, _, _, _, hc⟩ := hinv
  exact hc

/-- A running attempt's budget is below the largest value of `wd_count` (R28, R129). -/
theorem RunningInv.wdCount_lt (hinv : RunningInv Config.params s) : s.wdCount.toNat < 65535 :=
  hinv.1.trans (by decide)

section
variable (hr : s.state = .running) (hinv : RunningInv Config.params s)
include hr hinv

/-- SAMPLE_HIGH: the abort test comes before the watchdog's (R121, R127). -/
theorem apply_sampleHigh_endCause : (s.apply .sampleHigh).endCause = endingCause s .sampleHigh := by
  have hc := hinv.endCause_eq_none
  have hroom := hinv.wdCount_lt
  obtain ⟨_, hhigh, _⟩ := hinv
  have habort : s.highCount + 1 = 200#8 ↔ s.highCount = 199#8 := by constructor <;> intro h <;> bv_omega
  rw [State.apply_sampleHigh hr hroom (hhigh.trans (by decide))]
  by_cases h : s.highCount = 199#8
  · rw [endingCause_eq_abort_iff.2 ⟨rfl, h⟩]
    exact congrArg State.endCause (if_pos (habort.2 h))
  · have hcause : endingCause s .sampleHigh = watchdogCause s := by simp [endingCause, h]
    rw [hcause]
    exact (congrArg State.endCause (if_neg (mt habort.1 h))).trans (withWatchdog_endCause rfl hc)

/-- SAMPLE_LOW where it closes no pulse that ends the attempt: no run is open, or the pulse is a handshake's, or it is one of
the forty data pulses and classified (R130, R143, R146). -/
theorem apply_sampleLow_of_noEvent
    (hunclass : ¬(85 ≤ s.highCount.toNat ∧ 2 ≤ s.pulseIndex.toNat ∧ s.pulseIndex.toNat ≤ 41))
    (hover : ¬(s.highCount ≠ 0 ∧ s.pulseIndex = 42#6)) :
    ∃ u, s.apply .sampleLow = withWatchdog u ∧ u.wdCount = s.wdCount + 1 ∧ u.endCause = .none := by
  have hc := hinv.endCause_eq_none
  have hroom := hinv.wdCount_lt
  obtain ⟨_, _, hpulses, _⟩ := hinv
  by_cases hopen : s.highCount = 0
  · exact ⟨_, State.apply_sampleLow_noRun hr hroom hopen, rfl, hc⟩
  · have h41 : s.pulseIndex.toNat ≤ 41 := by
      have hp : s.pulseIndex ≠ 42#6 := fun hp => hover ⟨hopen, hp⟩
      bv_omega
    by_cases h2 : s.pulseIndex.toNat < 2
    · refine ⟨_, exec_next_iff.1 (exec_sampleLow_handshake hr hroom hopen h2), ?_, ?_⟩ <;> split
      exacts [rfl, rfl, hc, hc]
    · have hd : s.highCount.toNat < 85 := by omega
      obtain ⟨_, _, _, hfields⟩ := (withPulseCounted s).accumulate_fields (decide (30 ≤ s.highCount.toNat))
      refine ⟨_, exec_next_iff.1 (exec_sampleLow_dataPulse hr hroom hopen hd (by omega) h41), ?_, ?_⟩ <;> rw [hfields]
      exacts [rfl, hc]

/-- SAMPLE_LOW: the event of the pulse it closes comes before the watchdog test (R122, R127). -/
theorem apply_sampleLow_endCause : (s.apply .sampleLow).endCause = endingCause s .sampleLow := by
  have hroom := hinv.wdCount_lt
  by_cases hunclass : 85 ≤ s.highCount.toNat ∧ 2 ≤ s.pulseIndex.toNat ∧ s.pulseIndex.toNat ≤ 41
  · obtain ⟨hd, h2, h41⟩ := hunclass
    obtain ⟨_, hends, _⟩ := unclassifiableDataPulseEndsTheAttempt
    rw [endingCause_eq_unclassifiable_iff.2 ⟨rfl, hd, h2, h41⟩, exec_next_iff.1 (hends s hr hroom hd h2 h41)]
  · by_cases hover : s.highCount ≠ 0 ∧ s.pulseIndex = 42#6
    · obtain ⟨hopen, hp⟩ := hover
      rw [endingCause_eq_overflow_iff.2 ⟨rfl, hopen, hp⟩,
        exec_next_iff.1 (fortyFirstDataPulseOverflows s hr hroom hopen hp)]
    · have hcause : endingCause s .sampleLow = watchdogCause s := by
        rw [endingCause, if_neg (by simp), if_neg fun h => hunclass h.2, if_neg fun h => hover h.2, if_pos (.inr rfl)]
      obtain ⟨u, hlow, hwd, hnone⟩ := apply_sampleLow_of_noEvent hr hinv hunclass hover
      rw [hcause, hlow, withWatchdog_endCause hwd hnone]

/-- Every operation ends a running attempt as the table says, and no other way (R200). -/
theorem apply_endCause (i : Instr) : (s.apply i).endCause = endingCause s i := by
  have hc := hinv.endCause_eq_none
  cases i with
  | reset => exact (endingCause_of_not_sample (by decide) (by decide)).symm
  | start =>
    rw [exec_next_iff.1 (exec_start_of_running hr), hc, endingCause_of_not_sample (by decide) (by decide)]
  | sampleHigh => exact apply_sampleHigh_endCause hr hinv
  | sampleLow => exact apply_sampleLow_endCause hr hinv
  | nop => exact hc.trans (endingCause_of_not_sample (by decide) (by decide)).symm

/-- Only a sample ends a running attempt (R200). -/
theorem sample_of_apply_done {i : Instr} (hdone : (s.apply i).state = .done) : i = .sampleHigh ∨ i = .sampleLow := by
  have hcause := (State.applyFor_done_iff hr hinv.endCause_eq_none Config.params i).1 hdone
  by_contra hi
  obtain ⟨hhigh, hlow⟩ := not_or.1 hi
  exact hcause ((apply_endCause hr hinv i).trans (endingCause_of_not_sample hhigh hlow))

/-- After an ABORT the run is at the abort length (R204). -/
theorem apply_highCount_of_abort {i : Instr} (h : (s.apply i).endCause = .abort) : (s.apply i).highCount = 200#8 := by
  rw [apply_endCause hr hinv] at h
  obtain ⟨rfl, hhigh⟩ := endingCause_eq_abort_iff.1 h
  have hcount : countUp s.highCount = 200#8 := by rw [hhigh, countUp_eq (by decide)]; rfl
  have hends := State.sampleWord_high_abort (P := Config.params) hr (by rw [hcount]; rfl)
  exact (congrArg State.highCount hends).trans hcount

/-- A pulse that ends the attempt is counted and its run closed, and the accumulator and the Frame stay (R204). -/
theorem apply_fields_of_pulseEvent {i : Instr}
    (h : (s.apply i).endCause = .unclassifiable ∨ (s.apply i).endCause = .overflow) :
    (s.apply i).highCount = 0 ∧ (s.apply i).pulseIndex = s.pulseIndex + 1 ∧ (s.apply i).acc = s.acc ∧
      (s.apply i).bits = s.bits ∧ (s.apply i).frame = s.frame := by
  have hroom := hinv.wdCount_lt
  rw [apply_endCause hr hinv] at h
  rcases h with h | h
  · obtain ⟨rfl, hd, h2, h41⟩ := endingCause_eq_unclassifiable_iff.1 h
    obtain ⟨_, hends, _⟩ := unclassifiableDataPulseEndsTheAttempt
    rw [exec_next_iff.1 (hends s hr hroom hd h2 h41)]
    exact ⟨rfl, rfl, rfl, rfl, rfl⟩
  · obtain ⟨rfl, hopen, hp⟩ := endingCause_eq_overflow_iff.1 h
    rw [exec_next_iff.1 (fortyFirstDataPulseOverflows s hr hroom hopen hp), hp]
    exact ⟨rfl, rfl, rfl, rfl, rfl⟩

end

end

/-! The statements. -/

/-- Settles O42: what a sample of each ending cause leaves; after it the block is not running. -/
theorem attemptEndWritesThreeRegisters : Obligations.AttemptEndWritesThreeRegisters := by
  refine ⟨fun _ _ => rfl, fun s t i hr hinv hexec hdone => ?_⟩
  obtain rfl := exec_next_iff.1 hexec
  have hc := hinv.endCause_eq_none
  have hcause := (State.applyFor_done_iff hr hc Config.params i).1 hdone
  obtain ⟨t, hsample, hwd⟩ :=
    (everySampleConsumesOneTick s i hinv.wdCount_lt).1 hr (sample_of_apply_done hr hinv hdone)
  rw [← exec_next_iff.1 hsample] at hwd
  exact ⟨hwd, State.applyFor_result_of_endCause hr hc hcause, apply_highCount_of_abort hr hinv,
    apply_fields_of_pulseEvent hr hinv, samplesOutsideAnAttemptDoNothing _ (by simp [hdone])⟩

/-- Settles O43: the cause is the table's, and the verdict that of the cause. -/
theorem everyEndingHasItsCauseAndVerdict : Obligations.EveryEndingHasItsCauseAndVerdict := by
  refine ⟨fun s t i hr hinv hexec => ?_, fun s t i hr hexec hdone => ?_⟩ <;> obtain rfl := exec_next_iff.1 hexec
  · have hc := hinv.endCause_eq_none
    have hresult : (s.apply i).endCause ≠ .none → (s.apply i).result = (s.apply i).verdict (s.apply i).endCause :=
      State.applyFor_result_of_endCause hr hc
    refine ⟨State.applyFor_done_iff hr hc Config.params i, ?_, ?_, ?_, ?_, fun h => ?_, fun h => ?_⟩
    · rw [apply_endCause hr hinv, endingCause_eq_abort_iff]
    · rw [apply_endCause hr hinv, endingCause_eq_unclassifiable_iff]
    · rw [apply_endCause hr hinv, endingCause_eq_overflow_iff]
    · rw [apply_endCause hr hinv]
      exact endingCause_eq_watchdog_iff
    · rw [hresult (by rcases h with h | h <;> simp [h]), State.verdict_of_pulseEvent h]
    · rw [hresult (by rcases h with h | h <;> simp [h]), State.verdict_of_loopEnd h]
  · exact State.applyFor_eq_self_of_done hr hdone

/-- Settles O44: in DONE only START and RESET do anything, and START keeps nothing but the host's input. -/
theorem doneHoldsUntilStartOrReset : Obligations.DoneHoldsUntilStartOrReset := by
  refine ⟨fun is s hs his => applyAll_eq_self fun i hi => ?_, fun s t hs ht hstimulus hfree => ?_⟩
  · obtain ⟨hstart, hreset⟩ := his i hi
    exact State.applyFor_of_not_running (by simp [hs]) Config.params hreset hstart
  · rw [exec_start_of_not_running (by simp [hs]), exec_start_of_not_running (by simp [ht]),
      State.clearRegisters_congr hstimulus hfree]

end Sys2Proof.Safety
end

section
/-! PROOFS. The reset state: where RESET leads from any state and from power-up (R230, R231, R232), what it waits for, and
the invariant it starts (R28, R29). -/

/-! RESET, from any state and from power-up. -/

namespace Sys2Proof

/-- `rst` has the highest priority (R71, R100). -/
theorem decodeWord_of_rst {w : ControlWord} (h : ControlWord.rst w = true) : decodeWord w = .reset := if_pos h

end Sys2Proof

namespace Sys2Proof.Machine

/-- RESET leads to the model's reset state, but for the host's input, which is no register (R102, R230). -/
theorem State.resetWord_eq (s : State) : s.resetWord = State.reset.withInput s.stimulus s.freeWords := rfl

theorem exec_reset (s : State) : exec .reset s = .next s.resetWord := exec_eq .reset s

/-- A pending word with `rst = 1` runs RESET, whatever the registers hold (R100, R102). -/
theorem step_of_rst {s : State} {w : ControlWord} {ws : List ControlWord} (hrst : ControlWord.rst w = true)
    (h : s.stimulus = w :: ws) : step s = .next (State.reset.withInput ws s.freeWords) := by
  rw [stepRunsTheDecodedWord.1 s w ws h, decodeWord_of_rst hrst, exec_reset, State.resetWord_eq]

/-- After RESET only START changes a register: RESET again writes the same values, and samples need a running attempt
(R102, R105, R106). -/
theorem exec_resetWord_of_ne_start (s : State) {i : Instr} (hstart : i ≠ .start) :
    exec i s.resetWord = .next s.resetWord := by
  have hidle : s.resetWord.state ≠ .running := nofun
  by_cases hreset : i = .reset
  · subst hreset
    exact exec_reset s.resetWord
  · exact exec_of_not_running hidle hreset hstart

/-- Settles O12: RESET's answer is the clear block in IDLE, where only START does anything. -/
theorem afterResetTheBlockWaitsInIdle : Obligations.AfterResetTheBlockWaitsInIdle := fun s =>
  ⟨s.resetWord, exec_reset s, rfl, rfl, rfl, rfl, rfl, rfl, fun k => s.clearRegisters_read .idle k.val, rfl, rfl,
    s.resetWord_eq, fun _ => exec_resetWord_of_ne_start s⟩

/-- Settles O13: RESET reads no register, so the free values of power-up do not matter; no free word has been drawn yet. -/
theorem powerUpNeedsOneReset : Obligations.PowerUpNeedsOneReset := fun _ _ hrst =>
  step_of_rst hrst rfl

end Sys2Proof.Machine

/-! The invariant. -/

namespace Sys2Proof.Safety

open Sys2Proof.Machine

/-- The model's reset state is a fixed point of RESET, so it meets the invariant (R230, R28, R29). -/
theorem inv_reset (P : Params) : Inv P State.reset := inv_resetWord P State.reset

/-- Settles O49: the reset state meets the invariant, which does not read the host's input. -/
theorem resetMeetsTheInvariant : Obligations.ResetMeetsTheInvariant :=
  ⟨inv_reset Config.params, (inv_reset Config.params).withInput⟩

end Sys2Proof.Safety
end
